-- ==== Sys2Proof/Word.lean ====
section
/-! DEFINITION. The two widths of the core: 8-bit bytes and 16-bit words (spec/00_scope.md R8, R10). -/

namespace Sys2Proof

/-- An 8-bit value: a register, a memory byte, a latch, an immediate (R8). -/
abbrev Byte := BitVec 8

/-- A 16-bit value: `sp`, `pc`, an address, a register pair, `shreg` (R8). -/
abbrev Word := BitVec 16

end Sys2Proof
end

