-- ==== Sys2Proof/Syntax.lean ====
section
/-! DEFINITION. The instructions: one constructor for each row of spec/opcode_table.json, the unknown row among them
(spec/30_encoding.md R106, R117). An index field (register, pair, condition) is a plain number, because the index checks of
spec/60_exceptions.md R322 are part of the model; the range each field may take is in Sys2Proof/WellFormed.lean. -/

namespace Sys2Proof

/-- One decoded instruction (R105). Field names follow R102: `d`, `s` register indices, `p` a pair index, `c` a condition
code, `n` a restart number; `imm`, `port` are byte 2; `imm16`, `addr` are byte 3 ++ byte 2. -/
inductive Instr where
  /-- NOP (R305). -/
  | nop
  /-- HLT (R306). -/
  | hlt
  /-- EI (R303). -/
  | ei
  /-- DI (R304). -/
  | di
  /-- XCHG (R282). -/
  | xchg
  /-- XTHL (R258). -/
  | xthl
  /-- SPHL (R259). -/
  | sphl
  /-- PCHL (R238). -/
  | pchl
  /-- STC (R213). -/
  | stc
  /-- CMC (R214). -/
  | cmc
  /-- CMA (R212). -/
  | cma
  /-- IN port (R300). -/
  | inPort (port : Byte)
  /-- OUT port (R301). -/
  | outPort (port : Byte)
  /-- MOV d,s (R270). -/
  | movDS (d s : Nat)
  /-- MOV d,M (R271). -/
  | movDM (d : Nat)
  /-- MOV M,s (R272). -/
  | movMS (s : Nat)
  /-- ADD s (R170). -/
  | addS (s : Nat)
  /-- ADD M (R171). -/
  | addM
  /-- ADC s (R173). -/
  | adcS (s : Nat)
  /-- ADC M (R174). -/
  | adcM
  /-- SUB s (R176). -/
  | subS (s : Nat)
  /-- SUB M (R177). -/
  | subM
  /-- SBB s (R179). -/
  | sbbS (s : Nat)
  /-- SBB M (R180). -/
  | sbbM
  /-- ANA s (R182). -/
  | anaS (s : Nat)
  /-- ANA M (R183). -/
  | anaM
  /-- XRA s (R185). -/
  | xraS (s : Nat)
  /-- XRA M (R186). -/
  | xraM
  /-- ORA s (R188). -/
  | oraS (s : Nat)
  /-- ORA M (R189). -/
  | oraM
  /-- CMP s (R191). -/
  | cmpS (s : Nat)
  /-- CMP M (R192). -/
  | cmpM
  /-- ADI imm8 (R172). -/
  | adi (imm : Byte)
  /-- ACI imm8 (R175). -/
  | aci (imm : Byte)
  /-- SUI imm8 (R178). -/
  | sui (imm : Byte)
  /-- SBI imm8 (R181). -/
  | sbi (imm : Byte)
  /-- ANI imm8 (R184). -/
  | ani (imm : Byte)
  /-- XRI imm8 (R187). -/
  | xri (imm : Byte)
  /-- ORI imm8 (R190). -/
  | ori (imm : Byte)
  /-- CPI imm8 (R193). -/
  | cpi (imm : Byte)
  /-- JMP addr (R232). -/
  | jmp (addr : Word)
  /-- Jccc addr (R233). -/
  | jccc (c : Nat) (addr : Word)
  /-- CALL addr (R234). -/
  | call (addr : Word)
  /-- Cccc addr (R235). -/
  | cccc (c : Nat) (addr : Word)
  /-- RET (R236). -/
  | ret
  /-- Rccc (R237). -/
  | rccc (c : Nat)
  /-- PUSH rp, rp = B, D, H (R255). -/
  | pushRp (p : Nat)
  /-- PUSH PSW (R256). -/
  | pushPsw
  /-- POP rp, rp = B, D, H (R260). -/
  | popRp (p : Nat)
  /-- POP PSW (R257). -/
  | popPsw
  /-- RST n (R239); `n` is the 3-bit field itself, for which the spec names no index check. -/
  | rst (n : BitVec 3)
  /-- RLC (R208). -/
  | rlc
  /-- RRC (R209). -/
  | rrc
  /-- RAL (R210). -/
  | ral
  /-- RAR (R211). -/
  | rar
  /-- LXI rp,imm16 (R275). -/
  | lxi (p : Nat) (imm16 : Word)
  /-- MVI d,imm8 (R273). -/
  | mviD (d : Nat) (imm : Byte)
  /-- MVI M,imm8 (R274). -/
  | mviM (imm : Byte)
  /-- LDAX rp, rp = B, D (R276). -/
  | ldax (p : Nat)
  /-- STAX rp, rp = B, D (R277). -/
  | stax (p : Nat)
  /-- INX rp (R204). -/
  | inx (p : Nat)
  /-- DCX rp (R205). -/
  | dcx (p : Nat)
  /-- INR d (R200). -/
  | inrD (d : Nat)
  /-- INR M (R201). -/
  | inrM
  /-- DCR d (R202). -/
  | dcrD (d : Nat)
  /-- DCR M (R203). -/
  | dcrM
  /-- DAD rp (R207). -/
  | dad (p : Nat)
  /-- SHLD addr (R278). -/
  | shld (addr : Word)
  /-- LHLD addr (R279). -/
  | lhld (addr : Word)
  /-- STA addr (R280). -/
  | sta (addr : Word)
  /-- LDA addr (R281). -/
  | lda (addr : Word)
  /-- An opcode no row of the decoder matches (R110, R106 row 37); executing it is the fatal UnknownOpcode (R321). -/
  | unknown (opcode : Byte)
  deriving DecidableEq, Repr

/-- The 20 type tags of the decoder (R105). -/
inductive TypeTag where
  | registerMove | registerAlu | immediateAlu | branch | stackPush | stackPop | restart | rotate
  | loadPairImmediate | moveImmediate | loadIndirect | storeIndirect | incrementPair | decrementPair
  | incrementRegister | decrementRegister | doubleAdd | directAddress | miscellaneous | unknown
  deriving DecidableEq, Repr

end Sys2Proof
end

