-- ==== Sys2Proof/WellFormed.lean ====
section
/-! DEFINITION. Which instruction terms the decoder can produce: the value ranges of the operand fields
(spec/30_encoding.md R114, R117 and the "fields" of the opcode table). -/

namespace Sys2Proof

/-- A register index that names a register: 0..7 except 6, which is M (R33, R168). -/
def isRegisterIndex (r : Nat) : Bool := decide (r < 8) && decide (r ≠ 6)

/-- The 13 opcodes that match no row of the decoder (R110). -/
def unknownOpcodes : List Byte :=
  [0x08, 0x10, 0x18, 0x20, 0x28, 0x30, 0x38, 0x27, 0xCB, 0xD9, 0xDD, 0xED, 0xFD]

/-- The fields of the instruction are in the ranges its opcode-table row gives. -/
def Instr.wellFormed : Instr → Bool
  | .nop => true
  | .hlt => true
  | .ei => true
  | .di => true
  | .xchg => true
  | .xthl => true
  | .sphl => true
  | .pchl => true
  | .stc => true
  | .cmc => true
  | .cma => true
  | .inPort _ => true
  | .outPort _ => true
  | .movDS d s => isRegisterIndex d && isRegisterIndex s
  | .movDM d => isRegisterIndex d
  | .movMS s => isRegisterIndex s
  | .addS s => isRegisterIndex s
  | .addM => true
  | .adcS s => isRegisterIndex s
  | .adcM => true
  | .subS s => isRegisterIndex s
  | .subM => true
  | .sbbS s => isRegisterIndex s
  | .sbbM => true
  | .anaS s => isRegisterIndex s
  | .anaM => true
  | .xraS s => isRegisterIndex s
  | .xraM => true
  | .oraS s => isRegisterIndex s
  | .oraM => true
  | .cmpS s => isRegisterIndex s
  | .cmpM => true
  | .adi _ => true
  | .aci _ => true
  | .sui _ => true
  | .sbi _ => true
  | .ani _ => true
  | .xri _ => true
  | .ori _ => true
  | .cpi _ => true
  | .jmp _ => true
  | .jccc c _ => decide (c < 8)
  | .call _ => true
  | .cccc c _ => decide (c < 8)
  | .ret => true
  | .rccc c => decide (c < 8)
  | .pushRp p => decide (p < 3)
  | .pushPsw => true
  | .popRp p => decide (p < 3)
  | .popPsw => true
  | .rst _ => true
  | .rlc => true
  | .rrc => true
  | .ral => true
  | .rar => true
  | .lxi p _ => decide (p < 4)
  | .mviD d _ => isRegisterIndex d
  | .mviM _ => true
  | .ldax p => decide (p < 2)
  | .stax p => decide (p < 2)
  | .inx p => decide (p < 4)
  | .dcx p => decide (p < 4)
  | .inrD d => isRegisterIndex d
  | .inrM => true
  | .dcrD d => isRegisterIndex d
  | .dcrM => true
  | .dad p => decide (p < 4)
  | .shld _ => true
  | .lhld _ => true
  | .sta _ => true
  | .lda _ => true
  | .unknown op => unknownOpcodes.contains op

end Sys2Proof
end

