-- ==== Sys2Proof/Decode.lean ====
section
/-! DEFINITION. The decoder of spec/30_encoding.md: the ordered bit-mask table of R106, the operand fields of R102 and R103,
and the encoder written from the encoding patterns of the opcode table. -/

namespace Sys2Proof

/-- `hi ++ lo` of R11: the high byte in bits 15..8, the low byte in bits 7..0. -/
def joinBytes (hi lo : Byte) : Word := hi ++ lo

/-- Bits 7..0 (R11). -/
def lo8 (v : Word) : Byte := v.extractLsb' 0 8

/-- Bits 15..8 (R11). -/
def hi8 (v : Word) : Byte := v.extractLsb' 8 8

/-- The 37 rows of the decoder's table, by what they decode to (R106). -/
inductive Form where
  | nop | hlt | ei | di | xchg | xthl | sphl | pchl | stc | cmc | cma | inPort | outPort
  | mov | alu | aluImm | jmp | jccc | call | cccc | ret | rccc | push | pop | rst | rot | lxi | mvi
  | ldax | stax | inx | dcx | inr | dcr | dad | direct | unknown
  deriving DecidableEq, Repr

/-- Rows 1 to 13 of R106: the opcodes matched exactly, as mask, match and form. -/
def exactRows : List (Byte × Byte × Form) :=
  [(0xFF, 0x00, .nop), (0xFF, 0x76, .hlt), (0xFF, 0xFB, .ei), (0xFF, 0xF3, .di), (0xFF, 0xEB, .xchg),
   (0xFF, 0xE3, .xthl), (0xFF, 0xF9, .sphl), (0xFF, 0xE9, .pchl), (0xFF, 0x37, .stc), (0xFF, 0x3F, .cmc),
   (0xFF, 0x2F, .cma), (0xFF, 0xDB, .inPort), (0xFF, 0xD3, .outPort)]

/-- Rows 14 to 26 of R106. -/
def upperRows : List (Byte × Byte × Form) :=
  [(0xC0, 0x40, .mov), (0xC0, 0x80, .alu), (0xC7, 0xC6, .aluImm), (0xFF, 0xC3, .jmp), (0xC7, 0xC2, .jccc),
   (0xFF, 0xCD, .call), (0xC7, 0xC4, .cccc), (0xFF, 0xC9, .ret), (0xC7, 0xC0, .rccc), (0xCF, 0xC5, .push),
   (0xCF, 0xC1, .pop), (0xC7, 0xC7, .rst), (0xE7, 0x07, .rot)]

/-- Rows 27 to 37 of R106; the last row, with mask 0, matches every opcode left over. -/
def lowerRows : List (Byte × Byte × Form) :=
  [(0xCF, 0x01, .lxi), (0xC7, 0x06, .mvi), (0xEF, 0x0A, .ldax), (0xEF, 0x02, .stax), (0xCF, 0x03, .inx),
   (0xCF, 0x0B, .dcx), (0xC7, 0x04, .inr), (0xC7, 0x05, .dcr), (0xCF, 0x09, .dad), (0xE7, 0x22, .direct),
   (0x00, 0x00, .unknown)]

/-- The first row whose masked bits match, in the order of R106 ("first match wins", R105). -/
def firstMatch (op : Byte) : List (Byte × Byte × Form) → Form
  | [] => .unknown
  | (mask, value, form) :: rows => if op &&& mask = value then form else firstMatch op rows

/-- The classification of an opcode byte: it reads no state (R105). -/
def classify (op : Byte) : Form := firstMatch op (exactRows ++ upperRows ++ lowerRows)

/-- The type tag of a row (the "type tag" column of R106). -/
def Form.tag : Form → TypeTag
  | .nop | .hlt | .ei | .di | .xchg | .xthl | .sphl | .pchl | .stc | .cmc | .cma | .inPort | .outPort => .miscellaneous
  | .mov => .registerMove
  | .alu => .registerAlu
  | .aluImm => .immediateAlu
  | .jmp | .jccc | .call | .cccc | .ret | .rccc => .branch
  | .push => .stackPush
  | .pop => .stackPop
  | .rst => .restart
  | .rot => .rotate
  | .lxi => .loadPairImmediate
  | .mvi => .moveImmediate
  | .ldax => .loadIndirect
  | .stax => .storeIndirect
  | .inx => .incrementPair
  | .dcx => .decrementPair
  | .inr => .incrementRegister
  | .dcr => .decrementRegister
  | .dad => .doubleAdd
  | .direct => .directAddress
  | .unknown => .unknown

/-- How many operand bytes follow the opcode of a row: the "length" column of R106 less one. -/
def Form.operandCount : Form → Nat
  | .inPort | .outPort | .aluImm | .mvi => 1
  | .jmp | .jccc | .call | .cccc | .lxi | .direct => 2
  | .nop | .hlt | .ei | .di | .xchg | .xthl | .sphl | .pchl | .stc | .cmc | .cma => 0
  | .mov | .alu | .ret | .rccc | .push | .pop | .rst | .rot => 0
  | .ldax | .stax | .inx | .dcx | .inr | .dcr | .dad | .unknown => 0

/-- The 3-bit field in bits 5..3: `ddd`, `ccc`, `nnn`, `ooo` (R102). -/
def field53 (op : Byte) : BitVec 3 := op.extractLsb' 3 3

/-- The 3-bit field in bits 2..0: `sss` (R102). -/
def field20 (op : Byte) : BitVec 3 := op.extractLsb' 0 3

/-- The 2-bit field in bits 5..4: `rp` (R102). -/
def field54 (op : Byte) : BitVec 2 := op.extractLsb' 4 2

/-- The 2-bit field in bits 4..3: `qq` (R102). -/
def field43 (op : Byte) : BitVec 2 := op.extractLsb' 3 2

/-- MOV by its two register fields; index 6 on either side is the M form (R106 row 14, R270 to R272). The pair 6, 6 is
0x76, which row 2 has already matched as HLT, so its answer here is never used. -/
def assembleMov (d s : Nat) : Instr :=
  if d = 6 then .movMS s else if s = 6 then .movDM d else .movDS d s

/-- Register-ALU by `ooo` (R107) and `sss`; index 6 is the M form (R168). -/
def assembleAlu (ooo : BitVec 3) (s : Nat) : Instr :=
  match ooo.toNat with
  | 0 => if s = 6 then .addM else .addS s
  | 1 => if s = 6 then .adcM else .adcS s
  | 2 => if s = 6 then .subM else .subS s
  | 3 => if s = 6 then .sbbM else .sbbS s
  | 4 => if s = 6 then .anaM else .anaS s
  | 5 => if s = 6 then .xraM else .xraS s
  | 6 => if s = 6 then .oraM else .oraS s
  | _ => if s = 6 then .cmpM else .cmpS s

/-- Immediate-ALU by `ooo` (R107). -/
def assembleAluImm (ooo : BitVec 3) (imm : Byte) : Instr :=
  match ooo.toNat with
  | 0 => .adi imm
  | 1 => .aci imm
  | 2 => .sui imm
  | 3 => .sbi imm
  | 4 => .ani imm
  | 5 => .xri imm
  | 6 => .ori imm
  | _ => .cpi imm

/-- Rotates by `qq` (R108). -/
def assembleRotate (qq : BitVec 2) : Instr :=
  match qq.toNat with
  | 0 => .rlc
  | 1 => .rrc
  | 2 => .ral
  | _ => .rar

/-- Direct-address instructions by `qq` (R109). -/
def assembleDirect (qq : BitVec 2) (addr : Word) : Instr :=
  match qq.toNat with
  | 0 => .shld addr
  | 1 => .lhld addr
  | 2 => .sta addr
  | _ => .lda addr

/-- The instruction of an opcode and its operand bytes `b2`, `b3` (R102, R103, R106). A form with fewer operand bytes does
not use the ones it lacks. -/
def assemble (op b2 b3 : Byte) : Instr :=
  match classify op with
  | .nop => .nop
  | .hlt => .hlt
  | .ei => .ei
  | .di => .di
  | .xchg => .xchg
  | .xthl => .xthl
  | .sphl => .sphl
  | .pchl => .pchl
  | .stc => .stc
  | .cmc => .cmc
  | .cma => .cma
  | .inPort => .inPort b2
  | .outPort => .outPort b2
  | .mov => assembleMov (field53 op).toNat (field20 op).toNat
  | .alu => assembleAlu (field53 op) (field20 op).toNat
  | .aluImm => assembleAluImm (field53 op) b2
  | .jmp => .jmp (joinBytes b3 b2)
  | .jccc => .jccc (field53 op).toNat (joinBytes b3 b2)
  | .call => .call (joinBytes b3 b2)
  | .cccc => .cccc (field53 op).toNat (joinBytes b3 b2)
  | .ret => .ret
  | .rccc => .rccc (field53 op).toNat
  | .push => if (field54 op).toNat = 3 then .pushPsw else .pushRp (field54 op).toNat
  | .pop => if (field54 op).toNat = 3 then .popPsw else .popRp (field54 op).toNat
  | .rst => .rst (field53 op)
  | .rot => assembleRotate (field43 op)
  | .lxi => .lxi (field54 op).toNat (joinBytes b3 b2)
  | .mvi => if (field53 op).toNat = 6 then .mviM b2 else .mviD (field53 op).toNat b2
  | .ldax => .ldax (field54 op).toNat
  | .stax => .stax (field54 op).toNat
  | .inx => .inx (field54 op).toNat
  | .dcx => .dcx (field54 op).toNat
  | .inr => if (field53 op).toNat = 6 then .inrM else .inrD (field53 op).toNat
  | .dcr => if (field53 op).toNat = 6 then .dcrM else .dcrD (field53 op).toNat
  | .dad => .dad (field54 op).toNat
  | .direct => assembleDirect (field43 op) (joinBytes b3 b2)
  | .unknown => .unknown op

/-- Why a list of bytes holds no whole instruction. -/
inductive DecodeError where
  /-- There is no opcode byte. -/
  | noBytes
  /-- Fewer operand bytes than the opcode needs follow it. -/
  | truncated (opcode : Byte)
  deriving DecidableEq, Repr

/-- Decode the instruction at the head of a list of bytes, and give the bytes after it (R100, R106). Total: every opcode has
a meaning, the 13 of R110 the instruction `unknown`; only a list that ends too early is rejected. -/
def decode : List Byte → Except DecodeError (Instr × List Byte)
  | [] => .error .noBytes
  | op :: rest =>
    match (classify op).operandCount, rest with
    | 0, rest => .ok (assemble op 0 0, rest)
    | 1, b2 :: rest => .ok (assemble op b2 0, rest)
    | 2, b2 :: b3 :: rest => .ok (assemble op b2 b3, rest)
    | _, _ => .error (.truncated op)

/-- The length of an instruction in bytes (R100, R115). -/
def Instr.length : Instr → Nat
  | .inPort _ | .outPort _ | .mviD _ _ | .mviM _ => 2
  | .adi _ | .aci _ | .sui _ | .sbi _ | .ani _ | .xri _ | .ori _ | .cpi _ => 2
  | .jmp _ | .jccc _ _ | .call _ | .cccc _ _ | .lxi _ _ => 3
  | .shld _ | .lhld _ | .sta _ | .lda _ => 3
  | .nop | .hlt | .ei | .di | .xchg | .xthl | .sphl | .pchl | .stc | .cmc | .cma => 1
  | .movDS _ _ | .movDM _ | .movMS _ => 1
  | .addS _ | .addM | .adcS _ | .adcM | .subS _ | .subM | .sbbS _ | .sbbM => 1
  | .anaS _ | .anaM | .xraS _ | .xraM | .oraS _ | .oraM | .cmpS _ | .cmpM => 1
  | .ret | .rccc _ | .pushRp _ | .pushPsw | .popRp _ | .popPsw | .rst _ => 1
  | .rlc | .rrc | .ral | .rar | .ldax _ | .stax _ | .inx _ | .dcx _ => 1
  | .inrD _ | .inrM | .dcrD _ | .dcrM | .dad _ | .unknown _ => 1

/-- The first format of R101: the opcode alone. -/
def bytesF1 (op : Nat) : List Byte := [BitVec.ofNat 8 op]

/-- The second format of R101: the opcode and `imm8`. -/
def bytesF2 (op : Nat) (imm : Byte) : List Byte := [BitVec.ofNat 8 op, imm]

/-- The third format of R101: the opcode, then the low and the high byte. -/
def bytesF3 (op : Nat) (v : Word) : List Byte := [BitVec.ofNat 8 op, lo8 v, hi8 v]

/-- The bytes of a well-formed instruction, from the "encoding" patterns of the opcode table (R101, R102, R117). -/
def encode : Instr → List Byte
  | .nop => bytesF1 0x00
  | .hlt => bytesF1 0x76
  | .ei => bytesF1 0xFB
  | .di => bytesF1 0xF3
  | .xchg => bytesF1 0xEB
  | .xthl => bytesF1 0xE3
  | .sphl => bytesF1 0xF9
  | .pchl => bytesF1 0xE9
  | .stc => bytesF1 0x37
  | .cmc => bytesF1 0x3F
  | .cma => bytesF1 0x2F
  | .inPort port => bytesF2 0xDB port
  | .outPort port => bytesF2 0xD3 port
  | .movDS d s => bytesF1 (0x40 + 8 * d + s)
  | .movDM d => bytesF1 (0x46 + 8 * d)
  | .movMS s => bytesF1 (0x70 + s)
  | .addS s => bytesF1 (0x80 + s)
  | .addM => bytesF1 0x86
  | .adcS s => bytesF1 (0x88 + s)
  | .adcM => bytesF1 0x8E
  | .subS s => bytesF1 (0x90 + s)
  | .subM => bytesF1 0x96
  | .sbbS s => bytesF1 (0x98 + s)
  | .sbbM => bytesF1 0x9E
  | .anaS s => bytesF1 (0xA0 + s)
  | .anaM => bytesF1 0xA6
  | .xraS s => bytesF1 (0xA8 + s)
  | .xraM => bytesF1 0xAE
  | .oraS s => bytesF1 (0xB0 + s)
  | .oraM => bytesF1 0xB6
  | .cmpS s => bytesF1 (0xB8 + s)
  | .cmpM => bytesF1 0xBE
  | .adi imm => bytesF2 0xC6 imm
  | .aci imm => bytesF2 0xCE imm
  | .sui imm => bytesF2 0xD6 imm
  | .sbi imm => bytesF2 0xDE imm
  | .ani imm => bytesF2 0xE6 imm
  | .xri imm => bytesF2 0xEE imm
  | .ori imm => bytesF2 0xF6 imm
  | .cpi imm => bytesF2 0xFE imm
  | .jmp addr => bytesF3 0xC3 addr
  | .jccc c addr => bytesF3 (0xC2 + 8 * c) addr
  | .call addr => bytesF3 0xCD addr
  | .cccc c addr => bytesF3 (0xC4 + 8 * c) addr
  | .ret => bytesF1 0xC9
  | .rccc c => bytesF1 (0xC0 + 8 * c)
  | .pushRp p => bytesF1 (0xC5 + 16 * p)
  | .pushPsw => bytesF1 0xF5
  | .popRp p => bytesF1 (0xC1 + 16 * p)
  | .popPsw => bytesF1 0xF1
  | .rst n => bytesF1 (0xC7 + 8 * n.toNat)
  | .rlc => bytesF1 0x07
  | .rrc => bytesF1 0x0F
  | .ral => bytesF1 0x17
  | .rar => bytesF1 0x1F
  | .lxi p imm16 => bytesF3 (0x01 + 16 * p) imm16
  | .mviD d imm => bytesF2 (0x06 + 8 * d) imm
  | .mviM imm => bytesF2 0x36 imm
  | .ldax p => bytesF1 (0x0A + 16 * p)
  | .stax p => bytesF1 (0x02 + 16 * p)
  | .inx p => bytesF1 (0x03 + 16 * p)
  | .dcx p => bytesF1 (0x0B + 16 * p)
  | .inrD d => bytesF1 (0x04 + 8 * d)
  | .inrM => bytesF1 0x34
  | .dcrD d => bytesF1 (0x05 + 8 * d)
  | .dcrM => bytesF1 0x35
  | .dad p => bytesF1 (0x09 + 16 * p)
  | .shld addr => bytesF3 0x22 addr
  | .lhld addr => bytesF3 0x2A addr
  | .sta addr => bytesF3 0x32 addr
  | .lda addr => bytesF3 0x3A addr
  | .unknown op => [op]

/-- The three bytes a table word of `nbits` bits lays out, the first at the lowest address, every bit from `nbits` up zero. -/
def tableBytes (nbits w : Nat) : List Byte :=
  let v := w % 2 ^ nbits
  [BitVec.ofNat 8 v, BitVec.ofNat 8 (v / 256), BitVec.ofNat 8 (v / 65536)]

/-- The instruction the decoder reads from a table word (bit 0 the least significant bit of the opcode byte). -/
def decodeTableWord (nbits w : Nat) : Option Instr :=
  match decode (tableBytes nbits w) with
  | .ok (i, _) => some i
  | .error _ => none

end Sys2Proof
end

