-- ==== Sys2Proof/Config.lean ====
section
/-! DEFINITION. The fixed sizes of the core (spec/00_scope.md R8). The named parameters of R9 are definitions of
Sys2Proof/Machine/Params.lean. The spec leaves no value of an instruction open, so there is no free value here. -/

namespace Sys2Proof.Config

/-- The number of memory bytes (R8, R70). -/
def memSize : Nat := 65536

/-- The number of input-port latches (R8, R30). -/
def latchCount : Nat := 256

/-- The number of program-image bytes the loader copies to address 0 (R8, R372). -/
def imageSize : Nat := 8192

/-- The first address of the video window the display host reads (R8, R344). -/
def videoBase : Nat := 0x2400

/-- The number of bytes of the video window 0x2400..0x3FFF (R8, R344). -/
def videoSize : Nat := 0x1C00

end Sys2Proof.Config
end

