-- ==== Sys2Proof/Machine/State.lean ====
section
/-! DEFINITION. The architectural state of the core (spec/10_state.md R30 to R47), its reset value, and the reasons a step can
stop (spec/60_exceptions.md R320 to R324). -/

namespace Sys2Proof.Machine

/-- The seven general registers, by name (R32). -/
inductive RegName where
  | b | c | d | e | h | l | a
  deriving DecidableEq, Repr

/-- The seven 8-bit registers (R30, R32). -/
structure Regs where
  b : Byte
  c : Byte
  d : Byte
  e : Byte
  h : Byte
  l : Byte
  a : Byte
  deriving DecidableEq, Repr

/-- The five 1-bit flags: zero, sign, parity, carry, auxiliary carry (R38). -/
structure Flags where
  z : Bool
  s : Bool
  p : Bool
  cy : Bool
  ac : Bool
  deriving DecidableEq, Repr

/-- Which kind of index an IndexOutOfRange error names (R322). -/
inductive IndexKind where
  | register | pair | condition
  deriving DecidableEq, Repr

/-- The three fatal errors with what each records (R320 to R323). -/
inductive FatalError where
  /-- An opcode the decoder does not know, and its address (R321). -/
  | unknownOpcode (opcode : Byte) (addr : Word)
  /-- A register, pair or condition index outside its range (R322). -/
  | indexOutOfRange (what : IndexKind) (index : Nat)
  /-- A computed address outside memory (R323). -/
  | addressOutOfRange (addr : Nat)
  deriving DecidableEq, Repr

/-- The run status (R45). -/
inductive Status where
  | running
  | halted
  | faulted (e : FatalError)
  deriving DecidableEq, Repr

/-- The 65536 bytes of memory (R70): address and byte pairs, addresses strictly rising, and no pair whose byte is what an
unlisted address reads as, so that equal memories are equal lists. -/
abbrev Memory := List Host.Cell

/-- The 256 input-port latches (R43), by port number, in the same form as memory. -/
abbrev Latches := List Host.Cell

/-- All the state the spec gives the machine (R30, R42, R45). -/
structure State where
  /-- The general registers B, C, D, E, H, L, A (R32). -/
  regs : Regs
  /-- The stack pointer (R36). -/
  sp : Word
  /-- The program counter (R37). -/
  pc : Word
  /-- The five flags (R38). -/
  flags : Flags
  /-- The interrupt-enable bit (R41). -/
  inte : Bool
  /-- The input-port latches (R43). -/
  latches : Latches
  /-- The memory (R70). -/
  mem : Memory
  /-- The shift register of the peripheral (R42). -/
  shreg : Word
  /-- The shift amount of the peripheral (R42). -/
  shamt : BitVec 3
  /-- The run status (R45). -/
  status : Status
  deriving DecidableEq, Repr

/-- The reasons a step stops with a fault. -/
inductive Fault where
  /-- Raised by a step or a meaning that meets one of the three fatal errors (R320). It is the machine's own fatal outcome, so
  stopping is what the spec says and is safe. `left` is the state at the fault, with its status set to `faulted e`
  (R320, R321). -/
  | fatal (e : FatalError) (left : State)
  /-- Raised by `step` on a state whose status is not `running`: "no step exists otherwise" (R140). Safe: nothing can be
  proved of a step the machine does not make. -/
  | notRunning (status : Status)
  deriving DecidableEq, Repr

/-- The reasons a request is given no meaning. -/
inductive Refusal where
  /-- Raised by an arm of `exec` for an instruction that has no meaning in the model. Safe. No arm raises it. -/
  | notModelled (mnemonic : String)
  /-- Raised by `inject` for an opcode that is not one of the eight RST opcodes: the spec itself refuses it (R331). Safe. -/
  | injectedNotRst (opcode : Byte)
  /-- Raised by a host write to a latch outside HOST_LATCHES: the spec gives the host no such move (R340, R343). Safe. -/
  | latchNotHostWritable (port : Byte)
  deriving DecidableEq, Repr

/-- The outcome of a step, a meaning or a host action. -/
abbrev Result := Host.Outcome State Fault Refusal

/-- A computation that can meet a fatal error (`raise Fatal`, R15). -/
abbrev Checked (α : Type) := Except FatalError α

/-- The machine right after reset with an empty program image: the table of R47. Memory and latches list nothing, and an
unlisted byte reads 0x00. -/
def State.reset : State where
  regs := { b := 0, c := 0, d := 0, e := 0, h := 0, l := 0, a := 0 }
  sp := 0
  pc := 0
  flags := { z := false, s := false, p := false, cy := false, ac := false }
  inte := true
  latches := []
  mem := []
  shreg := 0
  shamt := 0
  status := .running

end Sys2Proof.Machine
end

