-- ==== Sys2Proof/Machine/Ops.lean ====
section
/-! DEFINITION. The named operations on the state: register and field writes, memory and latches, the stack primitives, the
fatal error, and the restart that takes an interrupt with the return beside it (spec/00_scope.md R11 to R15, 20_memory.md,
44_stack.md, 60_exceptions.md). -/

namespace Sys2Proof.Machine

/-! Fields. -/

/-- `x[n]` (R12). -/
def Regs.get (r : Regs) : RegName → Byte
  | .b => r.b
  | .c => r.c
  | .d => r.d
  | .e => r.e
  | .h => r.h
  | .l => r.l
  | .a => r.a

/-- `x[n] <- v` (R12). -/
def Regs.set (r : Regs) (n : RegName) (v : Byte) : Regs :=
  match n with
  | .b => { r with b := v }
  | .c => { r with c := v }
  | .d => { r with d := v }
  | .e => { r with e := v }
  | .h => { r with h := v }
  | .l => { r with l := v }
  | .a => { r with a := v }

/-- Write all the general registers. -/
def State.setRegs (s : State) (r : Regs) : State := { s with regs := r }

/-- Write one general register, `x[n] <- v` (R12). -/
def State.setReg (s : State) (n : RegName) (v : Byte) : State := s.setRegs (s.regs.set n v)

/-- `sp <- v`; the 16-bit width is the mod 2^16 of R36. -/
def State.setSp (s : State) (v : Word) : State := { s with sp := v }

/-- `pc <- v`; the 16-bit width is the mod 2^16 of R37. -/
def State.setPc (s : State) (v : Word) : State := { s with pc := v }

/-- Write the five flags. -/
def State.setFlags (s : State) (f : Flags) : State := { s with flags := f }

/-- `inte <- v` (R41). -/
def State.setInte (s : State) (v : Bool) : State := { s with inte := v }

/-- Write the latches as a whole. -/
def State.setLatches (s : State) (v : Latches) : State := { s with latches := v }

/-- Write the memory as a whole. -/
def State.setMem (s : State) (v : Memory) : State := { s with mem := v }

/-- `shreg <- v` (R42). -/
def State.setShreg (s : State) (v : Word) : State := { s with shreg := v }

/-- `shamt <- v` (R42). -/
def State.setShamt (s : State) (v : BitVec 3) : State := { s with shamt := v }

/-- Write the run status (R45). -/
def State.setStatus (s : State) (v : Status) : State := { s with status := v }

/-! Cells: memory and latches. -/

/-- What an address nothing is listed for reads as: memory is zero-filled and every latch is 0 at reset (R47, R370). -/
def unlistedByte : Byte := 0

/-- The byte at an address. -/
def cellRead (m : List Host.Cell) (a : Nat) : Byte :=
  match m with
  | [] => unlistedByte
  | (k, v) :: rest => if k = a then v else cellRead rest a

/-- List a byte at its place in the rising order, over the one listed there if there is one. -/
def cellInsert (m : List Host.Cell) (a : Nat) (v : Byte) : List Host.Cell :=
  match m with
  | [] => [(a, v)]
  | (k, x) :: rest =>
    if a < k then (a, v) :: (k, x) :: rest
    else if a = k then (a, v) :: rest
    else (k, x) :: cellInsert rest a v

/-- Write a byte; a byte equal to what an unlisted address reads as is not listed. -/
def cellWrite (m : List Host.Cell) (a : Nat) (v : Byte) : List Host.Cell :=
  if v = unlistedByte then m.filter (fun cell => cell.1 != a) else cellInsert m a v

/-- The canonical form below an address bound: addresses strictly rising, every one below the bound, no byte equal to what an
unlisted address reads as. -/
abbrev cellsOk (bound : Nat) (m : List Host.Cell) : Prop :=
  m.Pairwise (fun x y => x.1 < y.1) ∧ ∀ cell ∈ m, cell.1 < bound ∧ cell.2 ≠ unlistedByte

/-- The canonical form of memory (R70). -/
abbrev Memory.wf (m : Memory) : Prop := cellsOk Config.memSize m

/-- The canonical form of the latches (R43). -/
abbrev Latches.wf (m : Latches) : Prop := cellsOk Config.latchCount m

/-- The memory byte at an address. -/
def State.byteAt (s : State) (a : Word) : Byte := cellRead s.mem a.toNat

/-- Memory with one byte written. -/
def State.storeByte (s : State) (a : Word) (v : Byte) : State := s.setMem (cellWrite s.mem a.toNat v)

/-- The little-endian 16-bit value at `a`: low byte at `a`, high byte at `(a + 1) mod 2^16` (R72, R74). -/
def State.wordAt (s : State) (a : Word) : Word := joinBytes (s.byteAt (a + 1)) (s.byteAt a)

/-- Memory with a 16-bit value written: the low byte at `a` first, then the high byte at `(a + 1) mod 2^16` (R13, R74). -/
def State.storeWord (s : State) (a v : Word) : State :=
  (s.storeByte a (lo8 v)).storeByte (a + 1) (hi8 v)

/-- `latch[p]` (R12, R43). -/
def State.latch (s : State) (p : Byte) : Byte := cellRead s.latches p.toNat

/-- `latch[p] <- v`. -/
def State.setLatch (s : State) (p v : Byte) : State := s.setLatches (cellWrite s.latches p.toNat v)

/-! The checked memory primitives of R13: an address outside memory raises AddressOutOfRange (R323). -/

/-- `MemRead(addr, 1)`. -/
def memRead8 (s : State) (addr : Nat) : Checked Byte :=
  if addr < Config.memSize then .ok (s.byteAt (BitVec.ofNat 16 addr)) else .error (.addressOutOfRange addr)

/-- `MemWrite(addr, 1, v)`. -/
def memWrite8 (s : State) (addr : Nat) (v : Byte) : Checked State :=
  if addr < Config.memSize then .ok (s.storeByte (BitVec.ofNat 16 addr) v) else .error (.addressOutOfRange addr)

/-- `MemRead(addr, 2)`: the byte at `(addr + 1) mod 2^16` is the high byte (R13). -/
def memRead16 (s : State) (addr : Nat) : Checked Word := do
  let lo ← memRead8 s addr
  let hi ← memRead8 s ((addr + 1) % 65536)
  pure (joinBytes hi lo)

/-- `MemWrite(addr, 2, v)`: the low byte at `addr`, then the high byte at `(addr + 1) mod 2^16` (R13). -/
def memWrite16 (s : State) (addr : Nat) (v : Word) : Checked State := do
  let t ← memWrite8 s addr (lo8 v)
  memWrite8 t ((addr + 1) % 65536) (hi8 v)

/-! Outcomes. -/

/-- The number the spec gives a fatal error's kind (R321 to R323). It names the kind and carries no other meaning. -/
def FatalError.code : FatalError → Nat
  | .unknownOpcode _ _ => 1
  | .indexOutOfRange _ _ => 2
  | .addressOutOfRange _ => 3

/-- `raise Fatal(e)`: the run status becomes `faulted e` and the step ends in the fatal outcome (R15, R320). -/
def raiseFatal (s : State) (e : FatalError) : Result := .fault (.fatal e (s.setStatus (.faulted e)))

/-- End a step: with the state a computation gives, or in the fatal outcome it raises, which leaves nothing of the step's
effects but the status (R15). -/
def conclude (s : State) : Checked State → Result
  | .ok t => .next t
  | .error e => raiseFatal s e

/-! The stack (R14, R250, R251), and taking and leaving a restart. -/

/-- `push16(v)` (R250). -/
def push16 (s : State) (v : Word) : Checked State :=
  let t := s.setSp (s.sp - 2)
  memWrite16 t t.sp.toNat v

/-- `pop16()`: the value and the state with `sp` moved up (R251). -/
def pop16 (s : State) : Checked (Word × State) := do
  let v ← memRead16 s s.sp.toNat
  pure (v, s.setSp (s.sp + 2))

/-- `zext_16(8 * n)`: the address of restart vector `n` (R103, R239). -/
def restartVector (n : BitVec 3) : Word := BitVec.ofNat 16 (8 * n.toNat)

/-- Go to a target through the stack: push `pc`, then `pc <- target` (R230). -/
def callTo (s : State) (target : Word) : Checked State := do
  let t ← push16 s s.pc
  pure (t.setPc target)

/-- Take restart `n`: only `pc` is saved, on the stack, and `pc` becomes the vector (R239, R331). An RST in the program and an
accepted interrupt both come here. -/
def takeRestart (s : State) (n : BitVec 3) : Checked State := callTo s (restartVector n)

/-- Return: `pc <- pop16()`; a return from an interrupt is this ordinary return (R236, R333). -/
def returnFromStack (s : State) : Checked State := do
  let (v, t) ← pop16 s
  pure (t.setPc v)

end Sys2Proof.Machine
end

