-- ==== Sys2Proof/Machine/Params.lean ====
section
/-! DEFINITION. The named parameters of spec/00_scope.md R9 at the spec's decided values (log entry 3). IMAGE is the argument
of `State.resetWith`. -/

namespace Sys2Proof.Machine

/-- PSW_FILL: bits 5, 3 and 1 of the flags byte PUSH PSW writes, at their places in the byte: (0, 0, 1) (R9, R254). -/
def pswFill : Byte := 0x02

/-- SHIFT_RESULT_PORT: the latch the shift result is written to (R9, R338). -/
def shiftResultPort : Byte := 3

/-- SHIFT_EXTRACT: bits 15 - amt down to 8 - amt of the shift register (R9, R338). -/
def shiftExtract (reg : Word) (amt : BitVec 3) : Byte :=
  lo8 (reg >>> (8 - amt.toNat))

/-- HOST_LATCHES: the latches the host may write (R9, R343). -/
def hostLatches : List Byte := [1]

/-- Which half of the frame the display host has copied (R341). -/
inductive FrameHalf where
  | first | second
  deriving DecidableEq, Repr

/-- HOST_VECTORS: the opcodes the display host injects, RST 1 then RST 2 (R9, R341). -/
def hostVector : FrameHalf → Byte
  | .first => 0xCF
  | .second => 0xD7

end Sys2Proof.Machine
end

