-- ==== Sys2Proof/Machine/Flags.lean ====
section
/-! DEFINITION. The flag computations (spec/41_alu.md R160 to R167, 42_incdec_rotate_dad.md, 44_stack.md R254). Each operation
takes the operands and the flags before and gives the result and the flags after. -/

namespace Sys2Proof.Machine

/-- 1 if the byte has an even number of set bits (R16, R162). -/
def parity (v : Byte) : Bool :=
  !(v.getLsbD 0 ^^ v.getLsbD 1 ^^ v.getLsbD 2 ^^ v.getLsbD 3 ^^ v.getLsbD 4 ^^ v.getLsbD 5 ^^ v.getLsbD 6 ^^ v.getLsbD 7)

/-- `setZSP(v)`: zero, bit 7, parity; CY and AC are left (R16). -/
def Flags.setZSP (f : Flags) (v : Byte) : Flags :=
  { f with z := decide (v = 0), s := v.getLsbD 7, p := parity v }

/-- `F.CY <- v`. -/
def Flags.setCy (f : Flags) (v : Bool) : Flags := { f with cy := v }

/-- `add8(a, b, c)`: the exact sum is compared with 255 (R163). -/
def add8 (f : Flags) (a b : Byte) (c : Bool) : Byte × Flags :=
  let res := a.toNat + b.toNat + c.toNat
  let v := BitVec.ofNat 8 res
  (v, (f.setCy (decide (res > 255))).setZSP v)

/-- `sub8(a, b, c)`: the 16-bit difference wraps, and CY is set when its high byte is not zero (R164). -/
def sub8 (f : Flags) (a b : Byte) (c : Bool) : Byte × Flags :=
  let res : Word := a.zeroExtend 16 - b.zeroExtend 16 - (BitVec.ofBool c).zeroExtend 16
  let v := lo8 res
  (v, (f.setCy (decide (hi8 res ≠ 0))).setZSP v)

/-- `logic8(op, a, b)` after `res = a op b` is computed: CY is cleared (R165). -/
def logic8 (f : Flags) (res : Byte) : Byte × Flags :=
  (res, (f.setCy false).setZSP res)

/-- INR's result and flags (R200): the 16-bit sum with 1, CY when it exceeds 255. -/
def inc8 (f : Flags) (v : Byte) : Byte × Flags :=
  let res := v.toNat + 1
  let r := BitVec.ofNat 8 res
  (r, (f.setCy (decide (res > 255))).setZSP r)

/-- DCR's result and flags (R202): the wrapped 16-bit difference with 1, CY when its high byte is not zero. -/
def dec8 (f : Flags) (v : Byte) : Byte × Flags :=
  let res : Word := v.zeroExtend 16 - 1
  let r := lo8 res
  (r, (f.setCy (decide (hi8 res ≠ 0))).setZSP r)

/-- DAD's sum: CY when it exceeds 65535, no other flag (R207). -/
def add16 (f : Flags) (a b : Word) : Word × Flags :=
  let res := a.toNat + b.toNat
  (BitVec.ofNat 16 res, f.setCy (decide (res > 65535)))

/-- RLC (R208). -/
def rotateLeft (f : Flags) (a : Byte) : Byte × Flags :=
  let b7 := a.getLsbD 7
  ((a <<< 1) ||| (BitVec.ofBool b7).zeroExtend 8, f.setCy b7)

/-- RRC (R209). -/
def rotateRight (f : Flags) (a : Byte) : Byte × Flags :=
  let b0 := a.getLsbD 0
  ((a >>> 1) ||| ((BitVec.ofBool b0).zeroExtend 8 <<< 7), f.setCy b0)

/-- RAL: the vacated bit 0 takes the old carry (R210). -/
def rotateLeftCarry (f : Flags) (a : Byte) : Byte × Flags :=
  ((a <<< 1) ||| (BitVec.ofBool f.cy).zeroExtend 8, f.setCy (a.getLsbD 7))

/-- RAR: the vacated bit 7 takes the old carry (R211). -/
def rotateRightCarry (f : Flags) (a : Byte) : Byte × Flags :=
  ((a >>> 1) ||| ((BitVec.ofBool f.cy).zeroExtend 8 <<< 7), f.setCy (a.getLsbD 0))

/-- A flag at its place in a byte. -/
def bitAt (v : Bool) (n : Nat) : Byte := (BitVec.ofBool v).zeroExtend 8 <<< n

/-- `packF()`: S, Z, fill, AC, fill, P, fill, CY from bit 7 down (R254). -/
def packF (f : Flags) : Byte :=
  bitAt f.s 7 ||| bitAt f.z 6 ||| bitAt f.ac 4 ||| bitAt f.p 2 ||| bitAt f.cy 0 ||| pswFill

/-- `unpackF(b)`: bits 5, 3 and 1 are discarded (R254). -/
def unpackF (b : Byte) : Flags :=
  { s := b.getLsbD 7, z := b.getLsbD 6, ac := b.getLsbD 4, p := b.getLsbD 2, cy := b.getLsbD 0 }

end Sys2Proof.Machine
end

