-- ==== Sys2Proof/Machine/Operands.lean ====
section
/-! DEFINITION. Operand access (spec/40_execution_engine.md R143 to R146). Each operand form has the value or update it stands
for, and the checked access the instructions use, which raises IndexOutOfRange on an index outside its range (R322). -/

namespace Sys2Proof.Machine

/-- The pair B:C (R34). -/
def State.bc (s : State) : Word := joinBytes s.regs.b s.regs.c

/-- The pair D:E (R34). -/
def State.de (s : State) : Word := joinBytes s.regs.d s.regs.e

/-- The pair H:L, the address of M (R34, R35). -/
def State.hl (s : State) : Word := joinBytes s.regs.h s.regs.l

/-- Write B:C: `hi8` to B, `lo8` to C (R144). -/
def State.setBc (s : State) (v : Word) : State := (s.setReg .b (hi8 v)).setReg .c (lo8 v)

/-- Write D:E (R144). -/
def State.setDe (s : State) (v : Word) : State := (s.setReg .d (hi8 v)).setReg .e (lo8 v)

/-- Write H:L (R144). -/
def State.setHl (s : State) (v : Word) : State := (s.setReg .h (hi8 v)).setReg .l (lo8 v)

/-- `name(r)` for a register index other than 6 (R33, R143). -/
def regName (r : Nat) : RegName :=
  match r with
  | 0 => .b
  | 1 => .c
  | 2 => .d
  | 3 => .e
  | 4 => .h
  | 5 => .l
  | _ => .a

/-- `getR(r)` (R143): memory at H:L for index 6, else the register; an index of 8 or more raises IndexOutOfRange (R322). -/
def getR (s : State) (r : Nat) : Checked Byte :=
  if r = 6 then memRead8 s s.hl.toNat
  else if r < 8 then .ok (s.regs.get (regName r))
  else .error (.indexOutOfRange .register r)

/-- `setR(r, v)` (R143, R322). -/
def setR (s : State) (r : Nat) (v : Byte) : Checked State :=
  if r = 6 then memWrite8 s s.hl.toNat v
  else if r < 8 then .ok (s.setReg (regName r) v)
  else .error (.indexOutOfRange .register r)

/-- `getRP(p)` (R144, R322). -/
def getRP (s : State) (p : Nat) : Checked Word :=
  match p with
  | 0 => .ok s.bc
  | 1 => .ok s.de
  | 2 => .ok s.hl
  | 3 => .ok s.sp
  | _ => .error (.indexOutOfRange .pair p)

/-- `setRP(p, v)` (R144, R322). -/
def setRP (s : State) (p : Nat) (v : Word) : Checked State :=
  match p with
  | 0 => .ok (s.setBc v)
  | 1 => .ok (s.setDe v)
  | 2 => .ok (s.setHl v)
  | 3 => .ok (s.setSp v)
  | _ => .error (.indexOutOfRange .pair p)

/-- `getRPpsw(p)`: index 3 is A ++ packF() (R145). -/
def getRPpsw (s : State) (p : Nat) : Checked Word :=
  if p = 3 then .ok (joinBytes s.regs.a (packF s.flags)) else getRP s p

/-- `setRPpsw(p, v)`: index 3 writes A and the flags (R145). -/
def setRPpsw (s : State) (p : Nat) (v : Word) : Checked State :=
  if p = 3 then .ok ((s.setReg .a (hi8 v)).setFlags (unpackF (lo8 v))) else setRP s p v

/-- `cond(c)`, the condition against the current flags (R40, R146, R322). -/
def condHolds (f : Flags) (c : Nat) : Checked Bool :=
  match c with
  | 0 => .ok (!f.z)
  | 1 => .ok f.z
  | 2 => .ok (!f.cy)
  | 3 => .ok f.cy
  | 4 => .ok (!f.p)
  | 5 => .ok f.p
  | 6 => .ok (!f.s)
  | 7 => .ok f.s
  | _ => .error (.indexOutOfRange .condition c)

end Sys2Proof.Machine
end

