-- ==== Sys2Proof/Machine/Branch.lean ====
section
/-! DEFINITION. Jumps, calls, returns, PCHL and RST (spec/43_branch.md R230 to R239). The two address bytes of a jump or call are
fetched before the meaning runs, whether or not the branch is taken, so `pc` is past them (R230). -/

namespace Sys2Proof.Machine

/-- The operation kind of the unified branch, with the target a jump or call has (R230). -/
inductive BranchKind where
  | ret
  | jump (target : Word)
  | call (target : Word)
  deriving DecidableEq, Repr

/-- A branch that is taken (R230). -/
def takeBranch (kind : BranchKind) (s : State) : Checked State :=
  match kind with
  | .ret => returnFromStack s
  | .jump target => .ok (s.setPc target)
  | .call target => callTo s target

/-- The unified branch: taken always, or when condition `c` holds; else the next instruction follows (R230). -/
def branch (kind : BranchKind) (c : Nat) (always : Bool) (s : State) : Checked State :=
  if always then takeBranch kind s
  else do
    let taken ← condHolds s.flags c
    if taken then takeBranch kind s else pure s

/-- JMP addr (R232). -/
def execJmp (addr : Word) (s : State) : Result := conclude s (branch (.jump addr) 0 true s)

/-- Jccc addr (R233). -/
def execJccc (c : Nat) (addr : Word) (s : State) : Result := conclude s (branch (.jump addr) c false s)

/-- CALL addr (R234). -/
def execCall (addr : Word) (s : State) : Result := conclude s (branch (.call addr) 0 true s)

/-- Cccc addr (R235). -/
def execCccc (c : Nat) (addr : Word) (s : State) : Result := conclude s (branch (.call addr) c false s)

/-- RET (R236). -/
def execRet (s : State) : Result := conclude s (branch .ret 0 true s)

/-- Rccc (R237). -/
def execRccc (c : Nat) (s : State) : Result := conclude s (branch .ret c false s)

/-- PCHL (R238). -/
def execPchl (s : State) : Result := .next (s.setPc s.hl)

/-- RST n (R239). -/
def execRst (n : BitVec 3) (s : State) : Result := conclude s (takeRestart s n)

end Sys2Proof.Machine
end

