-- ==== Sys2Proof/Machine/DataTransfer.lean ====
section
/-! DEFINITION. The data-transfer instructions (spec/45_data_transfer.md R270 to R282). None of them writes a flag. -/

namespace Sys2Proof.Machine

/-- MOV d,s (R270). -/
def execMovDS (d r : Nat) (s : State) : Result :=
  conclude s (do let v ← getR s r; setR s d v)

/-- MOV d,M: the address is the old H:L (R271). -/
def execMovDM (d : Nat) (s : State) : Result :=
  conclude s (do let v ← memRead8 s s.hl.toNat; setR s d v)

/-- MOV M,s (R272). -/
def execMovMS (r : Nat) (s : State) : Result :=
  conclude s (do let v ← getR s r; memWrite8 s s.hl.toNat v)

/-- MVI d,imm8 (R273). -/
def execMviD (d : Nat) (imm : Byte) (s : State) : Result := conclude s (setR s d imm)

/-- MVI M,imm8 (R274). -/
def execMviM (imm : Byte) (s : State) : Result := conclude s (memWrite8 s s.hl.toNat imm)

/-- LXI rp,imm16 (R275). -/
def execLxi (p : Nat) (imm16 : Word) (s : State) : Result := conclude s (setRP s p imm16)

/-- LDAX rp (R276). -/
def execLdax (p : Nat) (s : State) : Result :=
  conclude s (do
    let a ← getRP s p
    let v ← memRead8 s a.toNat
    pure (s.setReg .a v))

/-- STAX rp (R277). -/
def execStax (p : Nat) (s : State) : Result :=
  conclude s (do let a ← getRP s p; memWrite8 s a.toNat s.regs.a)

/-- SHLD addr (R278). -/
def execShld (addr : Word) (s : State) : Result := conclude s (memWrite16 s addr.toNat s.hl)

/-- LHLD addr (R279). -/
def execLhld (addr : Word) (s : State) : Result :=
  conclude s (do let v ← memRead16 s addr.toNat; pure (s.setHl v))

/-- STA addr (R280). -/
def execSta (addr : Word) (s : State) : Result := conclude s (memWrite8 s addr.toNat s.regs.a)

/-- LDA addr (R281). -/
def execLda (addr : Word) (s : State) : Result :=
  conclude s (do let v ← memRead8 s addr.toNat; pure (s.setReg .a v))

/-- XCHG (R282). -/
def execXchg (s : State) : Result := .next ((s.setDe s.hl).setHl s.de)

end Sys2Proof.Machine
end

