-- ==== Sys2Proof/Machine/Alu.lean ====
section
/-! DEFINITION. The ALU instructions (spec/41_alu.md R166 to R193). An operation is applied to A and an operand byte; the three
operand forms are the register, the byte at H:L and the immediate (R168). `pc` is past the instruction already. -/

namespace Sys2Proof.Machine

/-- An ALU operation on the flags, A and the operand, giving the result and the flags after. -/
abbrev AluOp := Flags → Byte → Byte → Byte × Flags

/-- ADD (R163, R170). -/
def aluAdd : AluOp := fun f a b => add8 f a b false

/-- ADC (R163, R173). -/
def aluAdc : AluOp := fun f a b => add8 f a b f.cy

/-- SUB, and CMP's difference (R164, R176, R191). -/
def aluSub : AluOp := fun f a b => sub8 f a b false

/-- SBB (R164, R179). -/
def aluSbb : AluOp := fun f a b => sub8 f a b f.cy

/-- ANA (R165, R182). -/
def aluAnd : AluOp := fun f a b => logic8 f (a &&& b)

/-- XRA (R165, R185). -/
def aluXor : AluOp := fun f a b => logic8 f (a ^^^ b)

/-- ORA (R165, R188). -/
def aluOr : AluOp := fun f a b => logic8 f (a ||| b)

/-- Write a result to A, and the flags (R166). -/
def State.accumulate (s : State) (r : Byte × Flags) : State := (s.setReg .a r.1).setFlags r.2

/-- The state after an ALU operation that writes A. -/
def aluWrite (op : AluOp) (s : State) (v : Byte) : State := s.accumulate (op s.flags s.regs.a v)

/-- The state after a compare: the flags only (R166). -/
def aluCompare (op : AluOp) (s : State) (v : Byte) : State := s.setFlags (op s.flags s.regs.a v).2

/-- An ALU instruction on a register operand. -/
def aluReg (after : State → Byte → State) (r : Nat) (s : State) : Result :=
  conclude s (do let v ← getR s r; pure (after s v))

/-- An ALU instruction on the byte at H:L. -/
def aluMem (after : State → Byte → State) (s : State) : Result :=
  conclude s (do let v ← memRead8 s s.hl.toNat; pure (after s v))

/-- ADD s (R170). -/
def execAddS (r : Nat) (s : State) : Result := aluReg (aluWrite aluAdd) r s

/-- ADD M (R171). -/
def execAddM (s : State) : Result := aluMem (aluWrite aluAdd) s

/-- ADI imm8 (R172). -/
def execAdi (imm : Byte) (s : State) : Result := .next (aluWrite aluAdd s imm)

/-- ADC s (R173). -/
def execAdcS (r : Nat) (s : State) : Result := aluReg (aluWrite aluAdc) r s

/-- ADC M (R174). -/
def execAdcM (s : State) : Result := aluMem (aluWrite aluAdc) s

/-- ACI imm8 (R175). -/
def execAci (imm : Byte) (s : State) : Result := .next (aluWrite aluAdc s imm)

/-- SUB s (R176). -/
def execSubS (r : Nat) (s : State) : Result := aluReg (aluWrite aluSub) r s

/-- SUB M (R177). -/
def execSubM (s : State) : Result := aluMem (aluWrite aluSub) s

/-- SUI imm8 (R178). -/
def execSui (imm : Byte) (s : State) : Result := .next (aluWrite aluSub s imm)

/-- SBB s (R179). -/
def execSbbS (r : Nat) (s : State) : Result := aluReg (aluWrite aluSbb) r s

/-- SBB M (R180). -/
def execSbbM (s : State) : Result := aluMem (aluWrite aluSbb) s

/-- SBI imm8 (R181). -/
def execSbi (imm : Byte) (s : State) : Result := .next (aluWrite aluSbb s imm)

/-- ANA s (R182). -/
def execAnaS (r : Nat) (s : State) : Result := aluReg (aluWrite aluAnd) r s

/-- ANA M (R183). -/
def execAnaM (s : State) : Result := aluMem (aluWrite aluAnd) s

/-- ANI imm8 (R184). -/
def execAni (imm : Byte) (s : State) : Result := .next (aluWrite aluAnd s imm)

/-- XRA s (R185). -/
def execXraS (r : Nat) (s : State) : Result := aluReg (aluWrite aluXor) r s

/-- XRA M (R186). -/
def execXraM (s : State) : Result := aluMem (aluWrite aluXor) s

/-- XRI imm8 (R187). -/
def execXri (imm : Byte) (s : State) : Result := .next (aluWrite aluXor s imm)

/-- ORA s (R188). -/
def execOraS (r : Nat) (s : State) : Result := aluReg (aluWrite aluOr) r s

/-- ORA M (R189). -/
def execOraM (s : State) : Result := aluMem (aluWrite aluOr) s

/-- ORI imm8 (R190). -/
def execOri (imm : Byte) (s : State) : Result := .next (aluWrite aluOr s imm)

/-- CMP s (R191). -/
def execCmpS (r : Nat) (s : State) : Result := aluReg (aluCompare aluSub) r s

/-- CMP M (R192). -/
def execCmpM (s : State) : Result := aluMem (aluCompare aluSub) s

/-- CPI imm8 (R193). -/
def execCpi (imm : Byte) (s : State) : Result := .next (aluCompare aluSub s imm)

end Sys2Proof.Machine
end

