-- ==== Sys2Proof/Machine/IncDec.lean ====
section
/-! DEFINITION. Increment, decrement, double add, rotates, and the accumulator and carry instructions
(spec/42_incdec_rotate_dad.md R200 to R214). -/

namespace Sys2Proof.Machine

/-- INR d (R200). -/
def execInrD (d : Nat) (s : State) : Result :=
  conclude s (do
    let v ← getR s d
    let r := inc8 s.flags v
    setR (s.setFlags r.2) d r.1)

/-- INR M (R201). -/
def execInrM (s : State) : Result :=
  conclude s (do
    let v ← memRead8 s s.hl.toNat
    let r := inc8 s.flags v
    memWrite8 (s.setFlags r.2) s.hl.toNat r.1)

/-- DCR d (R202). -/
def execDcrD (d : Nat) (s : State) : Result :=
  conclude s (do
    let v ← getR s d
    let r := dec8 s.flags v
    setR (s.setFlags r.2) d r.1)

/-- DCR M (R203). -/
def execDcrM (s : State) : Result :=
  conclude s (do
    let v ← memRead8 s s.hl.toNat
    let r := dec8 s.flags v
    memWrite8 (s.setFlags r.2) s.hl.toNat r.1)

/-- INX rp (R204). -/
def execInx (p : Nat) (s : State) : Result :=
  conclude s (do let v ← getRP s p; setRP s p (v + 1))

/-- DCX rp (R205). -/
def execDcx (p : Nat) (s : State) : Result :=
  conclude s (do let v ← getRP s p; setRP s p (v - 1))

/-- DAD rp (R207). -/
def execDad (p : Nat) (s : State) : Result :=
  conclude s (do
    let v ← getRP s p
    let r := add16 s.flags s.hl v
    pure ((s.setHl r.1).setFlags r.2))

/-- RLC (R208). -/
def execRlc (s : State) : Result := .next (s.accumulate (rotateLeft s.flags s.regs.a))

/-- RRC (R209). -/
def execRrc (s : State) : Result := .next (s.accumulate (rotateRight s.flags s.regs.a))

/-- RAL (R210). -/
def execRal (s : State) : Result := .next (s.accumulate (rotateLeftCarry s.flags s.regs.a))

/-- RAR (R211). -/
def execRar (s : State) : Result := .next (s.accumulate (rotateRightCarry s.flags s.regs.a))

/-- CMA: no flag is written (R212). -/
def execCma (s : State) : Result := .next (s.setReg .a (~~~ s.regs.a))

/-- STC (R213). -/
def execStc (s : State) : Result := .next (s.setFlags (s.flags.setCy true))

/-- CMC (R214). -/
def execCmc (s : State) : Result := .next (s.setFlags (s.flags.setCy (!s.flags.cy)))

end Sys2Proof.Machine
end

