-- ==== Sys2Proof/Machine/InputOutput.lean ====
section
/-! DEFINITION. IN, OUT, EI, DI, NOP, HLT (spec/46_io_machine_control.md R300 to R306), the shift-register peripheral OUT drives
(spec/60_exceptions.md R335 to R339), and the unknown opcodes (R321). -/

namespace Sys2Proof.Machine

/-- `shift_latch()`: the visible result goes to the result latch (R338). -/
def shiftLatch (s : State) : State := s.setLatch shiftResultPort (shiftExtract s.shreg s.shamt)

/-- `shift_set_amount(v)`: bits 2..0 (R336). -/
def shiftSetAmount (s : State) (v : Byte) : State := shiftLatch (s.setShamt (v.extractLsb' 0 3))

/-- `shift_push_byte(v)`: the old high byte becomes the low byte, the new byte the high byte (R337). -/
def shiftPushByte (s : State) (v : Byte) : State := shiftLatch (s.setShreg (joinBytes v (hi8 s.shreg)))

/-- The output port that sets the shift amount (R301, R335). -/
def shiftAmountPort : Byte := 2

/-- The output port that shifts a byte in (R301, R335). -/
def shiftDataPort : Byte := 4

/-- IN port: the latch is read without side effect (R300). -/
def execInPort (port : Byte) (s : State) : Result := .next (s.setReg .a (s.latch port))

/-- OUT port: ports 2 and 4 drive the shifter, any other port does nothing (R301). -/
def execOutPort (port : Byte) (s : State) : Result :=
  if port = shiftAmountPort then .next (shiftSetAmount s s.regs.a)
  else if port = shiftDataPort then .next (shiftPushByte s s.regs.a)
  else .next s

/-- EI: in force from the end of this step (R303). -/
def execEi (s : State) : Result := .next (s.setInte true)

/-- DI (R304). -/
def execDi (s : State) : Result := .next (s.setInte false)

/-- NOP (R305). -/
def execNop (s : State) : Result := .next s

/-- HLT: the status becomes Halted, `pc` is past the HLT byte, nothing else changes (R306). -/
def execHlt (s : State) : Result := .next (s.setStatus .halted)

/-- An unknown opcode: the fatal error UnknownOpcode with the opcode and its address, which is `pc - 1` because the opcode fetch
has advanced `pc` by one and no operand byte is read (R321). -/
def execUnknown (opcode : Byte) (s : State) : Result := raiseFatal s (.unknownOpcode opcode (s.pc - 1))

end Sys2Proof.Machine
end

