-- ==== Sys2Proof/Machine/Stack.lean ====
section
/-! DEFINITION. PUSH, POP, XTHL and SPHL (spec/44_stack.md R253 to R260). -/

namespace Sys2Proof.Machine

/-- Push the value of pair `p`, where index 3 is PSW (R145, R253). -/
def pushPair (p : Nat) (s : State) : Result :=
  conclude s (do let v ← getRPpsw s p; push16 s v)

/-- Pop into pair `p`, where index 3 is PSW (R145, R253). -/
def popPair (p : Nat) (s : State) : Result :=
  conclude s (do let (v, t) ← pop16 s; setRPpsw t p v)

/-- PUSH rp (R255). -/
def execPushRp (p : Nat) (s : State) : Result := pushPair p s

/-- PUSH PSW (R256). -/
def execPushPsw (s : State) : Result := pushPair 3 s

/-- POP rp (R260). -/
def execPopRp (p : Nat) (s : State) : Result := popPair p s

/-- POP PSW: the only instruction that writes AC (R257). -/
def execPopPsw (s : State) : Result := popPair 3 s

/-- XTHL: `sp` is unchanged (R258). -/
def execXthl (s : State) : Result :=
  conclude s (do
    let t ← memRead16 s s.sp.toNat
    let u ← memWrite16 s s.sp.toNat s.hl
    pure (u.setHl t))

/-- SPHL (R259). -/
def execSphl (s : State) : Result := .next (s.setSp s.hl)

end Sys2Proof.Machine
end

