-- ==== Sys2Proof/Machine/Dispatch.lean ====
section
/-! DEFINITION. One arm per instruction (spec/40_execution_engine.md R147). `exec` runs on the state in which `pc` is already past
the instruction's bytes, as after the fetch of R140 and R141; an injected opcode runs on the state as it stands (R151). -/

namespace Sys2Proof.Machine

def exec (i : Instr) (s : State) : Host.Outcome State Fault Refusal :=
  match i with
  | .nop => Sys2Proof.Machine.execNop s
  | .hlt => Sys2Proof.Machine.execHlt s
  | .ei => Sys2Proof.Machine.execEi s
  | .di => Sys2Proof.Machine.execDi s
  | .xchg => Sys2Proof.Machine.execXchg s
  | .xthl => Sys2Proof.Machine.execXthl s
  | .sphl => Sys2Proof.Machine.execSphl s
  | .pchl => Sys2Proof.Machine.execPchl s
  | .stc => Sys2Proof.Machine.execStc s
  | .cmc => Sys2Proof.Machine.execCmc s
  | .cma => Sys2Proof.Machine.execCma s
  | .inPort port => Sys2Proof.Machine.execInPort port s
  | .outPort port => Sys2Proof.Machine.execOutPort port s
  | .movDS d r => Sys2Proof.Machine.execMovDS d r s
  | .movDM d => Sys2Proof.Machine.execMovDM d s
  | .movMS r => Sys2Proof.Machine.execMovMS r s
  | .addS r => Sys2Proof.Machine.execAddS r s
  | .addM => Sys2Proof.Machine.execAddM s
  | .adcS r => Sys2Proof.Machine.execAdcS r s
  | .adcM => Sys2Proof.Machine.execAdcM s
  | .subS r => Sys2Proof.Machine.execSubS r s
  | .subM => Sys2Proof.Machine.execSubM s
  | .sbbS r => Sys2Proof.Machine.execSbbS r s
  | .sbbM => Sys2Proof.Machine.execSbbM s
  | .anaS r => Sys2Proof.Machine.execAnaS r s
  | .anaM => Sys2Proof.Machine.execAnaM s
  | .xraS r => Sys2Proof.Machine.execXraS r s
  | .xraM => Sys2Proof.Machine.execXraM s
  | .oraS r => Sys2Proof.Machine.execOraS r s
  | .oraM => Sys2Proof.Machine.execOraM s
  | .cmpS r => Sys2Proof.Machine.execCmpS r s
  | .cmpM => Sys2Proof.Machine.execCmpM s
  | .adi imm => Sys2Proof.Machine.execAdi imm s
  | .aci imm => Sys2Proof.Machine.execAci imm s
  | .sui imm => Sys2Proof.Machine.execSui imm s
  | .sbi imm => Sys2Proof.Machine.execSbi imm s
  | .ani imm => Sys2Proof.Machine.execAni imm s
  | .xri imm => Sys2Proof.Machine.execXri imm s
  | .ori imm => Sys2Proof.Machine.execOri imm s
  | .cpi imm => Sys2Proof.Machine.execCpi imm s
  | .jmp addr => Sys2Proof.Machine.execJmp addr s
  | .jccc c addr => Sys2Proof.Machine.execJccc c addr s
  | .call addr => Sys2Proof.Machine.execCall addr s
  | .cccc c addr => Sys2Proof.Machine.execCccc c addr s
  | .ret => Sys2Proof.Machine.execRet s
  | .rccc c => Sys2Proof.Machine.execRccc c s
  | .pushRp p => Sys2Proof.Machine.execPushRp p s
  | .pushPsw => Sys2Proof.Machine.execPushPsw s
  | .popRp p => Sys2Proof.Machine.execPopRp p s
  | .popPsw => Sys2Proof.Machine.execPopPsw s
  | .rst n => Sys2Proof.Machine.execRst n s
  | .rlc => Sys2Proof.Machine.execRlc s
  | .rrc => Sys2Proof.Machine.execRrc s
  | .ral => Sys2Proof.Machine.execRal s
  | .rar => Sys2Proof.Machine.execRar s
  | .lxi p imm16 => Sys2Proof.Machine.execLxi p imm16 s
  | .mviD d imm => Sys2Proof.Machine.execMviD d imm s
  | .mviM imm => Sys2Proof.Machine.execMviM imm s
  | .ldax p => Sys2Proof.Machine.execLdax p s
  | .stax p => Sys2Proof.Machine.execStax p s
  | .inx p => Sys2Proof.Machine.execInx p s
  | .dcx p => Sys2Proof.Machine.execDcx p s
  | .inrD d => Sys2Proof.Machine.execInrD d s
  | .inrM => Sys2Proof.Machine.execInrM s
  | .dcrD d => Sys2Proof.Machine.execDcrD d s
  | .dcrM => Sys2Proof.Machine.execDcrM s
  | .dad p => Sys2Proof.Machine.execDad p s
  | .shld addr => Sys2Proof.Machine.execShld addr s
  | .lhld addr => Sys2Proof.Machine.execLhld addr s
  | .sta addr => Sys2Proof.Machine.execSta addr s
  | .lda addr => Sys2Proof.Machine.execLda addr s
  | .unknown opcode => Sys2Proof.Machine.execUnknown opcode s

end Sys2Proof.Machine
end

