-- ==== Sys2Proof/Machine/Fetch.lean ====
section
/-! DEFINITION. Fetching an instruction (spec/40_execution_engine.md R140, R141). -/

namespace Sys2Proof.Machine

/-- `fetch8()`: the byte at `pc`, and `pc` moved past it (R141). -/
def fetch8 (s : State) : Checked (Byte × State) := do
  let v ← memRead8 s s.pc.toNat
  pure (v, s.setPc (s.pc + 1))

/-- Fetch an opcode and exactly as many operand bytes as it needs, in increasing address order, and give the instruction with
the state whose `pc` is past it (R73, R140, R141). -/
def fetchInstr (s : State) : Checked (Instr × State) := do
  let (op, s1) ← fetch8 s
  match (classify op).operandCount with
  | 0 => pure (assemble op 0 0, s1)
  | 1 => do
    let (b2, s2) ← fetch8 s1
    pure (assemble op b2 0, s2)
  | _ => do
    let (b2, s2) ← fetch8 s1
    let (b3, s3) ← fetch8 s2
    pure (assemble op b2 b3, s3)

/-- The state with bytes stored one after another from an address on. -/
def placeBytes (s : State) (a : Word) : List Byte → State
  | [] => s
  | v :: rest => placeBytes (s.storeByte a v) (a + 1) rest

end Sys2Proof.Machine
end

