-- ==== Sys2Proof/Machine/Step.lean ====
section
/-! DEFINITION. One step of the core (spec/40_execution_engine.md R140). -/

namespace Sys2Proof.Machine

/-- Fetch, decode and execute one instruction. A step exists only while the status is running (R140, R45). -/
def step (s : State) : Host.Outcome State Fault Refusal :=
  match s.status with
  | .running =>
    match fetchInstr s with
    | .ok (i, t) => exec i t
    | .error e => raiseFatal s e
  | other => .fault (.notRunning other)

/-- The state with a table word's instruction stored at `pc`, where `step` fetches, and the status running, so that the next
step runs it. -/
def State.withFetchWord (s : State) (nbits w : Nat) : State :=
  placeBytes (s.setStatus .running) s.pc (tableBytes nbits w)

end Sys2Proof.Machine
end

