-- ==== Sys2Proof/Machine/Interrupt.lean ====
section
/-! DEFINITION. The interrupt controller's injection entry point (spec/60_exceptions.md R330 to R334). It is called by the host
between two steps and is no part of `step`. -/

namespace Sys2Proof.Machine

/-- The eight restart opcodes `11nnn111` (R331). -/
def isRestartOpcode (op : Byte) : Bool := op &&& 0xC7 == 0xC7

/-- `inject(op)`: no effect unless the core runs; an opcode that is not RST is refused; with `inte` 0 the injection is dropped;
otherwise `inte` is cleared and the opcode is executed without a fetch (R331, R151). -/
def inject (op : Byte) (s : State) : Result :=
  if s.status ≠ .running then .next s
  else if isRestartOpcode op = false then .refused (.injectedNotRst op)
  else if s.inte = false then .next s
  else exec (assemble op 0 0) (s.setInte false)

end Sys2Proof.Machine
end

