-- ==== Sys2Proof/Machine/Collaborators.lean ====
section
/-! DEFINITION. The host's interactions with the core (spec/60_exceptions.md R340 to R346), the program load of reset
(spec/70_reset_and_hazards.md R370, R372), and runs (spec/40_execution_engine.md R149). -/

namespace Sys2Proof.Machine

/-- `reset(IMAGE)`: the reset state with the first 8192 bytes of the image stored from address 0 (R370, R372). -/
def State.resetWith (image : List Byte) : State := placeBytes State.reset 0 (image.take Config.imageSize)

/-- What the host can do between two steps (R340). -/
inductive HostAction where
  /-- Call the injection entry point with an opcode (R331). -/
  | inject (op : Byte)
  /-- The display collaborator's call after one half of the frame (R341). -/
  | refresh (half : FrameHalf)
  /-- Write a byte into an input latch; the input collaborator writes latch 1 (R343). -/
  | writeLatch (port v : Byte)
  /-- An operator's request to end the run (R345). -/
  | terminate
  deriving DecidableEq, Repr

/-- A host write to a latch: one of HOST_LATCHES, or no move of the host's; without effect once the run has ended
(R343, R346). -/
def hostWriteLatch (port v : Byte) (s : State) : Result :=
  if s.status ≠ .running then .next s
  else if hostLatches.contains port then .next (s.setLatch port v)
  else .refused (.latchNotHostWritable port)

/-- The state after a host action. A termination changes nothing: the state is the one after the last completed step
(R345). -/
def hostAct (act : HostAction) (s : State) : Result :=
  match act with
  | .inject op => inject op s
  | .refresh half => inject (hostVector half) s
  | .writeLatch port v => hostWriteLatch port v s
  | .terminate => .next s

/-- The bytes the display host reads, from the first address of the video window to the last (R344). -/
def videoBytes (s : State) : List Byte :=
  (List.range Config.videoSize).map (fun k => s.byteAt (BitVec.ofNat 16 (Config.videoBase + k)))

/-- One move of a run: a step of the core, or a host action between steps (R149). -/
inductive Event where
  | step
  | host (act : HostAction)
  deriving DecidableEq, Repr

/-- The outcome of one move. -/
def runEvent (e : Event) (s : State) : Result :=
  match e with
  | .step => step s
  | .host act => hostAct act s

/-- A run over a schedule of moves. It ends early with a fault or a refusal, and at an operator's termination, after which no
move follows (R149, R345). -/
def runEvents : List Event → State → Result
  | [], s => .next s
  | e :: rest, s =>
    if e = .host .terminate then .next s
    else
      match runEvent e s with
      | .next t => runEvents rest t
      | .fault r => .fault r
      | .refused r => .refused r

end Sys2Proof.Machine
end

