-- ==== Sys2Proof/Safety.lean ====
section
/-! DEFINITION. The terms in which the claims speak of safe runs: the invariant of the state, the reachable states,
the expected values of operands and results as the spec's tables list them, and what each instruction may change. -/

namespace Sys2Proof.Machine

/-! What holds of every state a run can reach. -/

/-- The invariant: memory and latches are in their canonical form (the model's own, log entry 6), the result latch holds the
shifter's visible result (R338, R339), and the status is not `faulted`, which only the fatal outcome carries (R320, log
entry 2). -/
abbrev State.Inv (s : State) : Prop :=
  Memory.wf s.mem ∧ Latches.wf s.latches ∧ s.latch shiftResultPort = shiftExtract s.shreg s.shamt ∧
    (s.status = .running ∨ s.status = .halted)

/-- The states of the runs that start from reset with some image (R149). -/
inductive Reachable : State → Prop where
  | reset (image : List Byte) : Reachable (State.resetWith image)
  | move (e : Event) (s t : State) : Reachable s → runEvent e s = .next t → Reachable t

/-- The bytes from `pc` on are the ones of a list (R73). -/
def SpelledAtPc (s : State) (bytes : List Byte) : Prop :=
  (List.range bytes.length).map (fun k => s.byteAt (s.pc + BitVec.ofNat 16 k)) = bytes

/-! Operands and conditions, as the spec's tables list them, for the claims' expected values. -/

/-- The register of an index that names one (R33): 0 B, 1 C, 2 D, 3 E, 4 H, 5 L, 7 A. -/
def regAt (s : State) : Nat → Byte
  | 0 => s.regs.b
  | 1 => s.regs.c
  | 2 => s.regs.d
  | 3 => s.regs.e
  | 4 => s.regs.h
  | 5 => s.regs.l
  | _ => s.regs.a

/-- The state with the register of an index written (R33). -/
def withReg (s : State) (r : Nat) (v : Byte) : State :=
  match r with
  | 0 => { s with regs := { s.regs with b := v } }
  | 1 => { s with regs := { s.regs with c := v } }
  | 2 => { s with regs := { s.regs with d := v } }
  | 3 => { s with regs := { s.regs with e := v } }
  | 4 => { s with regs := { s.regs with h := v } }
  | 5 => { s with regs := { s.regs with l := v } }
  | _ => { s with regs := { s.regs with a := v } }

/-- The pair of an index (R34): 0 B:C, 1 D:E, 2 H:L, 3 SP. -/
def pairAt (s : State) : Nat → Word
  | 0 => joinBytes s.regs.b s.regs.c
  | 1 => joinBytes s.regs.d s.regs.e
  | 2 => joinBytes s.regs.h s.regs.l
  | _ => s.sp

/-- The state with the pair of an index written (R34). -/
def withPair (s : State) (p : Nat) (v : Word) : State :=
  match p with
  | 0 => { s with regs := { s.regs with b := hi8 v, c := lo8 v } }
  | 1 => { s with regs := { s.regs with d := hi8 v, e := lo8 v } }
  | 2 => { s with regs := { s.regs with h := hi8 v, l := lo8 v } }
  | _ => { s with sp := v }

/-- The condition of a code (R40): the flag Z, CY, P or S of the code's pair is 0 for an even code and 1 for an odd one. -/
def conditionTrue (f : Flags) (c : Nat) : Bool :=
  (if c / 2 = 0 then f.z else if c / 2 = 1 then f.cy else if c / 2 = 2 then f.p else f.s) == decide (c % 2 = 1)

/-- The number of set bits of a byte is even (R16). -/
def evenOnes (v : Byte) : Bool := (List.range 8).countP (fun k => v.getLsbD k) % 2 == 0

/-- The flags after an instruction that writes Z, S, P from a result byte and CY, and leaves AC (R38, R160 to R162). -/
def resultFlags (f : Flags) (res : Byte) (carry : Bool) : Flags :=
  { z := decide (res = 0), s := decide (128 ≤ res.toNat), p := evenOnes res, cy := carry, ac := f.ac }

/-! Expected states of the ALU families. -/

/-- A gets the sum with a carry in, and CY says whether the exact sum exceeds 255 (R163). -/
def sumState (s : State) (v : Byte) (c : Bool) : State :=
  let sum := s.regs.a.toNat + v.toNat + c.toNat
  let res := BitVec.ofNat 8 sum
  { s with regs := { s.regs with a := res }, flags := resultFlags s.flags res (decide (255 < sum)) }

/-- The flags of the difference with a borrow in: CY when the subtrahend with the borrow exceeds A (R164). -/
def differenceFlags (s : State) (v : Byte) (c : Bool) : Flags :=
  resultFlags s.flags (s.regs.a - v - BitVec.ofNat 8 c.toNat) (decide (s.regs.a.toNat < v.toNat + c.toNat))

/-- A gets the difference (R164). -/
def differenceState (s : State) (v : Byte) (c : Bool) : State :=
  { s with
    regs := { s.regs with a := s.regs.a - v - BitVec.ofNat 8 c.toNat }
    flags := differenceFlags s v c }

/-- A gets a logical result and CY is cleared (R165). -/
def logicState (s : State) (res : Byte) : State :=
  { s with regs := { s.regs with a := res }, flags := resultFlags s.flags res false }

/-- An ALU operation has the register, M and immediate forms of R168 with the opcodes `reg + sss`, `reg + 6` and `imm`, and
every form answers the next state `expected` gives for its operand byte. -/
def AluForms (regForm : Nat → Instr) (memForm : Instr) (immForm : Byte → Instr) (reg imm : Nat)
    (expected : State → Byte → State) : Prop :=
  (∀ r : Nat, r < 8 → r ≠ 6 → encode (regForm r) = [BitVec.ofNat 8 (reg + r)] ∧
    ∀ s : State, exec (regForm r) s = .next (expected s (regAt s r))) ∧
  (encode memForm = [BitVec.ofNat 8 (reg + 6)] ∧
    ∀ s : State, exec memForm s = .next (expected s (s.byteAt (pairAt s 2)))) ∧
  ∀ v : Byte, encode (immForm v) = [BitVec.ofNat 8 imm, v] ∧
    ∀ s : State, exec (immForm v) s = .next (expected s v)

/-! What an instruction may change. -/

/-- The registers an instruction writes: its destinations (R32, and each instruction's rule). -/
def destRegs : Instr → List RegName
  | .movDS d _ => [regName d]
  | .movDM d => [regName d]
  | .mviD d _ => [regName d]
  | .inrD d => [regName d]
  | .dcrD d => [regName d]
  | .addS _ | .addM | .adi _ | .adcS _ | .adcM | .aci _ => [.a]
  | .subS _ | .subM | .sui _ | .sbbS _ | .sbbM | .sbi _ => [.a]
  | .anaS _ | .anaM | .ani _ | .xraS _ | .xraM | .xri _ | .oraS _ | .oraM | .ori _ => [.a]
  | .rlc | .rrc | .ral | .rar | .cma | .ldax _ | .lda _ | .inPort _ | .popPsw => [.a]
  | .lxi p _ | .inx p | .dcx p | .popRp p =>
    if p = 0 then [.b, .c] else if p = 1 then [.d, .e] else if p = 2 then [.h, .l] else []
  | .dad _ | .lhld _ | .xthl => [.h, .l]
  | .xchg => [.d, .e, .h, .l]
  | .nop | .hlt | .ei | .di | .sphl | .pchl | .stc | .cmc | .outPort _ => []
  | .movMS _ | .mviM _ | .stax _ | .sta _ | .shld _ | .inrM | .dcrM => []
  | .cmpS _ | .cmpM | .cpi _ | .pushRp _ | .pushPsw => []
  | .jmp _ | .jccc _ _ | .call _ | .cccc _ _ | .ret | .rccc _ | .rst _ | .unknown _ => []

/-- Which flags an instruction may write: the rows of the table of R38. -/
inductive FlagClass where
  | none | carry | allButAc | all
  deriving DecidableEq, Repr

/-- The row of R38 an instruction is in. -/
def flagClass : Instr → FlagClass
  | .addS _ | .addM | .adi _ | .adcS _ | .adcM | .aci _ => .allButAc
  | .subS _ | .subM | .sui _ | .sbbS _ | .sbbM | .sbi _ | .cmpS _ | .cmpM | .cpi _ => .allButAc
  | .anaS _ | .anaM | .ani _ | .xraS _ | .xraM | .xri _ | .oraS _ | .oraM | .ori _ => .allButAc
  | .inrD _ | .inrM | .dcrD _ | .dcrM => .allButAc
  | .rlc | .rrc | .ral | .rar | .dad _ | .stc | .cmc => .carry
  | .popPsw => .all
  | .nop | .hlt | .ei | .di | .xchg | .xthl | .sphl | .pchl | .cma | .inPort _ | .outPort _ => .none
  | .movDS _ _ | .movDM _ | .movMS _ | .mviD _ _ | .mviM _ | .lxi _ _ | .ldax _ | .stax _ => .none
  | .inx _ | .dcx _ | .shld _ | .lhld _ | .sta _ | .lda _ | .pushRp _ | .pushPsw | .popRp _ => .none
  | .jmp _ | .jccc _ _ | .call _ | .cccc _ _ | .ret | .rccc _ | .rst _ | .unknown _ => .none

/-- The instructions that may write `sp` (R36). -/
def writesSp : Instr → Bool
  | .lxi p _ | .inx p | .dcx p => p == 3
  | .sphl | .pushRp _ | .pushPsw | .popRp _ | .popPsw => true
  | .call _ | .cccc _ _ | .ret | .rccc _ | .rst _ => true
  | .nop | .hlt | .ei | .di | .xchg | .xthl | .pchl | .stc | .cmc | .cma | .inPort _ | .outPort _ => false
  | .movDS _ _ | .movDM _ | .movMS _ | .mviD _ _ | .mviM _ | .ldax _ | .stax _ | .dad _ => false
  | .addS _ | .addM | .adi _ | .adcS _ | .adcM | .aci _ | .subS _ | .subM | .sui _ | .sbbS _ | .sbbM | .sbi _ => false
  | .anaS _ | .anaM | .ani _ | .xraS _ | .xraM | .xri _ | .oraS _ | .oraM | .ori _ | .cmpS _ | .cmpM | .cpi _ => false
  | .rlc | .rrc | .ral | .rar | .inrD _ | .inrM | .dcrD _ | .dcrM => false
  | .shld _ | .lhld _ | .sta _ | .lda _ | .jmp _ | .jccc _ _ | .unknown _ => false

/-- The control transfers: the instructions that may write `pc` after the fetch (R142). -/
def isTransfer : Instr → Bool
  | .jmp _ | .jccc _ _ | .call _ | .cccc _ _ | .ret | .rccc _ | .rst _ | .pchl => true
  | .nop | .hlt | .ei | .di | .xchg | .xthl | .sphl | .stc | .cmc | .cma | .inPort _ | .outPort _ => false
  | .movDS _ _ | .movDM _ | .movMS _ | .mviD _ _ | .mviM _ | .lxi _ _ | .ldax _ | .stax _ | .inx _ | .dcx _ => false
  | .addS _ | .addM | .adi _ | .adcS _ | .adcM | .aci _ | .subS _ | .subM | .sui _ | .sbbS _ | .sbbM | .sbi _ => false
  | .anaS _ | .anaM | .ani _ | .xraS _ | .xraM | .xri _ | .oraS _ | .oraM | .ori _ | .cmpS _ | .cmpM | .cpi _ => false
  | .rlc | .rrc | .ral | .rar | .inrD _ | .inrM | .dcrD _ | .dcrM | .dad _ => false
  | .shld _ | .lhld _ | .sta _ | .lda _ | .pushRp _ | .pushPsw | .popRp _ | .popPsw | .unknown _ => false

/-- The address and the number of bytes an instruction stores to, in the state it executes on: the bytes at H:L, at a pair, at
`addr16`, at `sp - 2` for a push, at `sp` for XTHL (R76). Nothing for an instruction, or a condition, that stores nothing. -/
def storeSite (i : Instr) (s : State) : Option (Word × Nat) :=
  match i with
  | .movMS _ => some (s.hl, 1)
  | .mviM _ => some (s.hl, 1)
  | .inrM => some (s.hl, 1)
  | .dcrM => some (s.hl, 1)
  | .stax p => if p = 0 then some (s.bc, 1) else some (s.de, 1)
  | .sta addr => some (addr, 1)
  | .shld addr => some (addr, 2)
  | .pushRp _ => some (s.sp - 2, 2)
  | .pushPsw => some (s.sp - 2, 2)
  | .call _ => some (s.sp - 2, 2)
  | .cccc c _ => if condHolds s.flags c = .ok true then some (s.sp - 2, 2) else none
  | .rst _ => some (s.sp - 2, 2)
  | .xthl => some (s.sp, 2)
  | .nop | .hlt | .ei | .di | .xchg | .sphl | .pchl | .stc | .cmc | .cma | .inPort _ | .outPort _ => none
  | .movDS _ _ | .movDM _ | .mviD _ _ | .lxi _ _ | .ldax _ | .inx _ | .dcx _ | .inrD _ | .dcrD _ | .dad _ => none
  | .addS _ | .addM | .adi _ | .adcS _ | .adcM | .aci _ | .subS _ | .subM | .sui _ | .sbbS _ | .sbbM | .sbi _ => none
  | .anaS _ | .anaM | .ani _ | .xraS _ | .xraM | .xri _ | .oraS _ | .oraM | .ori _ | .cmpS _ | .cmpM | .cpi _ => none
  | .rlc | .rrc | .ral | .rar | .lhld _ | .lda _ | .jmp _ | .jccc _ _ | .ret | .rccc _ => none
  | .popRp _ | .popPsw | .unknown _ => none

/-- An address is one of the bytes of a store site, counted modulo 2^16 (R74). -/
def inSite (a : Word) : Option (Word × Nat) → Prop
  | none => False
  | some (b, n) => a = b ∨ (n = 2 ∧ a = b + 1)

end Sys2Proof.Machine
end

