-- ==== Sys2Proof/Certificates/Slice0/Obligations.lean ====
section
/-! DEFINITION. The statements for the provers. `exec i s` runs on the state in which `pc` is past the instruction's bytes
(R140, R141, R148); how a step comes to such a state is StepRunsDecodedInstruction. -/

open Sys2Proof Sys2Proof.Machine

/-! Decoding. -/

/-- Decoding the bytes of a well-formed instruction gives it back, with the bytes after it (R100 to R106, R117). -/
def Obligations.DecodeOfEncode : Prop :=
  ∀ (i : Instr) (rest : List Byte), i.wellFormed = true → decode (encode i ++ rest) = .ok (i, rest)

/-- What the decoder reads is well-formed, and it read exactly the encoding of it (R105, R106, R112, R114). -/
def Obligations.EncodeOfDecode : Prop :=
  ∀ (bytes : List Byte) (i : Instr) (rest : List Byte),
    decode bytes = .ok (i, rest) → i.wellFormed = true ∧ bytes = encode i ++ rest

/-- R113: how many of the 256 opcodes each of the 20 type tags has. -/
def Obligations.OpcodeTypeCounts : Prop :=
  let count (tag : TypeTag) : Nat :=
    (List.range 256).countP (fun n => decide ((classify (BitVec.ofNat 8 n)).tag = tag))
  count .registerMove = 63 ∧ count .registerAlu = 64 ∧ count .immediateAlu = 8 ∧ count .branch = 27 ∧
    count .stackPush = 4 ∧ count .stackPop = 4 ∧ count .restart = 8 ∧ count .rotate = 4 ∧
    count .loadPairImmediate = 4 ∧ count .moveImmediate = 8 ∧ count .loadIndirect = 2 ∧ count .storeIndirect = 2 ∧
    count .incrementPair = 4 ∧ count .decrementPair = 4 ∧ count .incrementRegister = 8 ∧
    count .decrementRegister = 8 ∧ count .doubleAdd = 4 ∧ count .directAddress = 4 ∧
    count .miscellaneous = 13 ∧ count .unknown = 13

/-- R110: the 13 unknown opcodes are the listed ones; executing one is the fatal UnknownOpcode, injecting one is refused. -/
def Obligations.UnknownOpcodesAreThirteen : Prop :=
  ∀ op : Byte,
    let listed : Prop :=
      op ∈ ([0x08, 0x10, 0x18, 0x20, 0x28, 0x30, 0x38, 0x27, 0xCB, 0xD9, 0xDD, 0xED, 0xFD] : List Byte)
    (classify op = .unknown ↔ listed) ∧
    (listed → decode [op] = .ok (.unknown op, []) ∧
      (∀ s : State, exec (.unknown op) s =
        .fault (.fatal (.unknownOpcode op (s.pc - 1)) { s with status := .faulted (.unknownOpcode op (s.pc - 1)) })) ∧
      ∀ s : State, s.status = .running → inject op s = .refused (.injectedNotRst op))

/-- Bytes written out from the encodings of R106 and R115 decode to the instructions they stand for. -/
def Obligations.SpecWordsDecode : Prop :=
  decode [0x76] = .ok (.hlt, []) ∧ decode [0x41] = .ok (.movDS 0 1, []) ∧ decode [0x66] = .ok (.movDM 4, []) ∧
    decode [0x70] = .ok (.movMS 0, []) ∧ decode [0x9D] = .ok (.sbbS 5, []) ∧ decode [0xBE] = .ok (.cmpM, []) ∧
    decode [0xFE, 0x4A] = .ok (.cpi 0x4A, []) ∧ decode [0x1D] = .ok (.dcrD 3, []) ∧ decode [0x39] = .ok (.dad 3, []) ∧
    decode [0xC3, 0x34, 0x12] = .ok (.jmp 0x1234, []) ∧ decode [0xDC, 0x00, 0x02] = .ok (.cccc 3 0x0200, []) ∧
    decode [0xF8] = .ok (.rccc 7, []) ∧ decode [0xD5] = .ok (.pushRp 1, []) ∧ decode [0xF1] = .ok (.popPsw, []) ∧
    decode [0xD7] = .ok (.rst 2, []) ∧ decode [0x31, 0x00, 0x24] = .ok (.lxi 3 0x2400, []) ∧
    decode [0x12] = .ok (.stax 1, []) ∧ decode [0xDB, 0x01] = .ok (.inPort 1, []) ∧
    decode [0x27] = .ok (.unknown 0x27, [])

/-! The step. -/

/-- R140, R141: a step executes the instruction that the bytes at `pc` decode to, with `pc` moved past its bytes. -/
def Obligations.StepRunsDecodedInstruction : Prop :=
  ∀ (s : State) (i : Instr) (rest : List Byte), s.status = .running →
    decode [s.byteAt s.pc, s.byteAt (s.pc + 1), s.byteAt (s.pc + 2)] = .ok (i, rest) →
    step s = exec i { s with pc := s.pc + BitVec.ofNat 16 i.length }

/-- A step at the bytes of a well-formed instruction executes it, with `pc` moved past its bytes (R73, R140, R141). -/
def Obligations.StepRunsEncodedInstruction : Prop :=
  ∀ (i : Instr) (s : State), i.wellFormed = true → s.status = .running → SpelledAtPc s (encode i) →
    step s = exec i { s with pc := s.pc + BitVec.ofNat 16 (encode i).length }

/-- R45, R140: no step exists in a halted or faulted state; that the model answers the fault `notRunning` there is its choice
(log entry 1). -/
def Obligations.StepNeedsRunning : Prop :=
  ∀ s : State, s.status ≠ .running → step s = .fault (.notRunning s.status)

/-- R321: a step on an unknown opcode is the fatal UnknownOpcode (number 1) with the opcode and its address; `pc` is past the
opcode and nothing else has changed; injection never executes one. -/
def Obligations.UnknownOpcodeFault : Prop :=
  ∀ s : State, s.status = .running → s.byteAt s.pc ∈ unknownOpcodes →
    let e : FatalError := .unknownOpcode (s.byteAt s.pc) s.pc
    step s = .fault (.fatal e { s with pc := s.pc + 1, status := .faulted e }) ∧ e.code = 1 ∧
      inject (s.byteAt s.pc) s = .refused (.injectedNotRst (s.byteAt s.pc))

/-- R322: an index outside its range raises IndexOutOfRange (number 2) with its kind and value, in each operand access; no step
and no host action of any state ever raises it. -/
def Obligations.IndexOutOfRangeChecks : Prop :=
  (∀ (s : State) (r : Nat) (v : Byte), 8 ≤ r →
    getR s r = .error (.indexOutOfRange .register r) ∧ setR s r v = .error (.indexOutOfRange .register r)) ∧
  (∀ (s : State) (p : Nat) (v : Word), 4 ≤ p →
    getRP s p = .error (.indexOutOfRange .pair p) ∧ setRP s p v = .error (.indexOutOfRange .pair p) ∧
    getRPpsw s p = .error (.indexOutOfRange .pair p) ∧ setRPpsw s p v = .error (.indexOutOfRange .pair p)) ∧
  (∀ (f : Flags) (c : Nat), 8 ≤ c → condHolds f c = .error (.indexOutOfRange .condition c)) ∧
  (∀ (what : IndexKind) (index : Nat), (FatalError.indexOutOfRange what index).code = 2) ∧
  ∀ (e : Event) (s left : State) (what : IndexKind) (index : Nat),
    runEvent e s ≠ .fault (.fatal (.indexOutOfRange what index) left)

/-- R323: an address outside 0..65535 raises AddressOutOfRange (number 3) with the address, in a read and in a write; no step
and no host action of any state ever raises it. -/
def Obligations.AddressOutOfRangeChecks : Prop :=
  (∀ (s : State) (addr : Nat) (v : Byte) (w : Word), 65536 ≤ addr →
    memRead8 s addr = .error (.addressOutOfRange addr) ∧ memWrite8 s addr v = .error (.addressOutOfRange addr) ∧
    memRead16 s addr = .error (.addressOutOfRange addr) ∧ memWrite16 s addr w = .error (.addressOutOfRange addr)) ∧
  (∀ addr : Nat, (FatalError.addressOutOfRange addr).code = 3) ∧
  ∀ (e : Event) (s left : State) (addr : Nat), runEvent e s ≠ .fault (.fatal (.addressOutOfRange addr) left)

/-- Every instruction the decoder can give, but the unknown ones, answers a next state in every state, and only HLT changes the
run status (R168, R320, R324). -/
def Obligations.DecodableInstructionsComplete : Prop :=
  ∀ (i : Instr) (s : State), i.wellFormed = true → (∀ op, i ≠ .unknown op) →
    ∃ t, exec i s = .next t ∧ t.status = if i = .hlt then .halted else s.status

/-! Operand access and flags. -/

/-- R16: parity counts the set bits; `setZSP` writes zero, bit 7 and parity. -/
def Obligations.ParityAndSetZSP : Prop :=
  ∀ (v : Byte) (f : Flags), parity v = evenOnes v ∧
    f.setZSP v = { f with z := decide (v = 0), s := decide (128 ≤ v.toNat), p := evenOnes v }

/-- R143: what each register index reads and writes, and the error outside the range. -/
def Obligations.RegisterIndexAccess : Prop :=
  ∀ (s : State) (v : Byte),
    (getR s 0 = .ok s.regs.b ∧ setR s 0 v = .ok { s with regs := { s.regs with b := v } }) ∧
    (getR s 1 = .ok s.regs.c ∧ setR s 1 v = .ok { s with regs := { s.regs with c := v } }) ∧
    (getR s 2 = .ok s.regs.d ∧ setR s 2 v = .ok { s with regs := { s.regs with d := v } }) ∧
    (getR s 3 = .ok s.regs.e ∧ setR s 3 v = .ok { s with regs := { s.regs with e := v } }) ∧
    (getR s 4 = .ok s.regs.h ∧ setR s 4 v = .ok { s with regs := { s.regs with h := v } }) ∧
    (getR s 5 = .ok s.regs.l ∧ setR s 5 v = .ok { s with regs := { s.regs with l := v } }) ∧
    (getR s 6 = memRead8 s (joinBytes s.regs.h s.regs.l).toNat ∧
      setR s 6 v = memWrite8 s (joinBytes s.regs.h s.regs.l).toNat v) ∧
    (getR s 7 = .ok s.regs.a ∧ setR s 7 v = .ok { s with regs := { s.regs with a := v } }) ∧
    ∀ r, 8 ≤ r → getR s r = .error (.indexOutOfRange .register r) ∧ setR s r v = .error (.indexOutOfRange .register r)

/-- R144, R145: what each pair index reads and writes; index 3 is SP, and A with the packed flags in PUSH and POP. -/
def Obligations.PairIndexAccess : Prop :=
  ∀ (s : State) (v : Word),
    (∀ p, p < 4 → getRP s p = .ok (pairAt s p) ∧ setRP s p v = .ok (withPair s p v)) ∧
    (∀ p, p < 3 → getRPpsw s p = .ok (pairAt s p) ∧ setRPpsw s p v = .ok (withPair s p v)) ∧
    getRPpsw s 3 = .ok (joinBytes s.regs.a (packF s.flags)) ∧
    setRPpsw s 3 v = .ok { s with regs := { s.regs with a := hi8 v }, flags := unpackF (lo8 v) }

/-- R146: the eight condition codes. -/
def Obligations.ConditionCodes : Prop :=
  ∀ f : Flags,
    condHolds f 0 = .ok (decide (f.z = false)) ∧ condHolds f 1 = .ok (decide (f.z = true)) ∧
    condHolds f 2 = .ok (decide (f.cy = false)) ∧ condHolds f 3 = .ok (decide (f.cy = true)) ∧
    condHolds f 4 = .ok (decide (f.p = false)) ∧ condHolds f 5 = .ok (decide (f.p = true)) ∧
    condHolds f 6 = .ok (decide (f.s = false)) ∧ condHolds f 7 = .ok (decide (f.s = true)) ∧
    ∀ c, c < 8 → condHolds f c = .ok (conditionTrue f c)

/-! ALU, increment, rotate. -/

/-- R163, R170 to R175: ADD and ADC in their three forms. -/
def Obligations.AddAndAdcResults : Prop :=
  AluForms .addS .addM .adi 0x80 0xC6 (fun s v => sumState s v false) ∧
  AluForms .adcS .adcM .aci 0x88 0xCE (fun s v => sumState s v s.flags.cy)

/-- R164, R176 to R181: SUB and SBB in their three forms. -/
def Obligations.SubAndSbbResults : Prop :=
  AluForms .subS .subM .sui 0x90 0xD6 (fun s v => differenceState s v false) ∧
  AluForms .sbbS .sbbM .sbi 0x98 0xDE (fun s v => differenceState s v s.flags.cy)

/-- R165, R182 to R190: ANA, XRA and ORA in their three forms. -/
def Obligations.LogicalResults : Prop :=
  AluForms .anaS .anaM .ani 0xA0 0xE6 (fun s v => logicState s (s.regs.a &&& v)) ∧
  AluForms .xraS .xraM .xri 0xA8 0xEE (fun s v => logicState s (s.regs.a ^^^ v)) ∧
  AluForms .oraS .oraM .ori 0xB0 0xF6 (fun s v => logicState s (s.regs.a ||| v))

/-- R191 to R193: CMP in its three forms writes the flags of the difference and not A. -/
def Obligations.CompareResults : Prop :=
  AluForms .cmpS .cmpM .cpi 0xB8 0xFE (fun s v => { s with flags := differenceFlags s v false })

/-- R200, R201: INR on a register and on memory; CY is 1 exactly when the byte was 0xFF. -/
def Obligations.IncrementResults : Prop :=
  (∀ d : Nat, d < 8 → d ≠ 6 → encode (.inrD d) = [BitVec.ofNat 8 (0x04 + 8 * d)] ∧
    ∀ s : State, exec (.inrD d) s = .next
      { withReg s d (regAt s d + 1) with
        flags := resultFlags s.flags (regAt s d + 1) (decide (regAt s d = 0xFF)) }) ∧
  encode .inrM = [0x34] ∧
  ∀ s : State, let a := pairAt s 2
    exec .inrM s = .next
      { s.storeByte a (s.byteAt a + 1) with
        flags := resultFlags s.flags (s.byteAt a + 1) (decide (s.byteAt a = 0xFF)) }

/-- R202, R203: DCR on a register and on memory; CY is 1 exactly when the byte was 0x00. -/
def Obligations.DecrementResults : Prop :=
  (∀ d : Nat, d < 8 → d ≠ 6 → encode (.dcrD d) = [BitVec.ofNat 8 (0x05 + 8 * d)] ∧
    ∀ s : State, exec (.dcrD d) s = .next
      { withReg s d (regAt s d - 1) with
        flags := resultFlags s.flags (regAt s d - 1) (decide (regAt s d = 0)) }) ∧
  encode .dcrM = [0x35] ∧
  ∀ s : State, let a := pairAt s 2
    exec .dcrM s = .next
      { s.storeByte a (s.byteAt a - 1) with
        flags := resultFlags s.flags (s.byteAt a - 1) (decide (s.byteAt a = 0)) }

/-- R204, R205: INX and DCX on each pair, modulo 2^16, with no flag written. -/
def Obligations.PairIncrementDecrementResults : Prop :=
  ∀ p : Nat, p < 4 →
    encode (.inx p) = [BitVec.ofNat 8 (0x03 + 16 * p)] ∧ encode (.dcx p) = [BitVec.ofNat 8 (0x0B + 16 * p)] ∧
    ∀ s : State, exec (.inx p) s = .next (withPair s p (pairAt s p + 1)) ∧
      exec (.dcx p) s = .next (withPair s p (pairAt s p - 1))

/-- R207: DAD adds a pair to H:L; CY says whether the exact sum exceeds 65535, and no other flag is written. -/
def Obligations.DoubleAddResult : Prop :=
  ∀ p : Nat, p < 4 → encode (.dad p) = [BitVec.ofNat 8 (0x09 + 16 * p)] ∧
    ∀ s : State, let sum := (pairAt s 2).toNat + (pairAt s p).toNat
      exec (.dad p) s = .next
        { withPair s 2 (BitVec.ofNat 16 sum) with flags := { s.flags with cy := decide (65535 < sum) } }

/-- R208 to R211: the four rotates; CY gets the bit shifted out, and no other flag is written. -/
def Obligations.RotateResults : Prop :=
  encode .rlc = [0x07] ∧ encode .rrc = [0x0F] ∧ encode .ral = [0x17] ∧ encode .rar = [0x1F] ∧
  ∀ s : State, let a := s.regs.a
    let after (v : Byte) (carry : Bool) : State :=
      { s with regs := { s.regs with a := v }, flags := { s.flags with cy := carry } }
    exec .rlc s = .next (after (a.rotateLeft 1) (decide (128 ≤ a.toNat))) ∧
    exec .rrc s = .next (after (a.rotateRight 1) (decide (a.toNat % 2 = 1))) ∧
    exec .ral s = .next (after (BitVec.ofNat 8 (2 * a.toNat + s.flags.cy.toNat)) (decide (128 ≤ a.toNat))) ∧
    exec .rar s = .next (after (BitVec.ofNat 8 (a.toNat / 2 + 128 * s.flags.cy.toNat)) (decide (a.toNat % 2 = 1)))

/-- R212 to R214: CMA writes no flag; STC and CMC write CY only. -/
def Obligations.ComplementAndCarryResults : Prop :=
  encode .cma = [0x2F] ∧ encode .stc = [0x37] ∧ encode .cmc = [0x3F] ∧
  ∀ s : State,
    exec .cma s = .next { s with regs := { s.regs with a := s.regs.a ^^^ 0xFF } } ∧
    exec .stc s = .next { s with flags := { s.flags with cy := true } } ∧
    exec .cmc s = .next { s with flags := { s.flags with cy := !s.flags.cy } }

/-! Data transfer. -/

/-- R270 to R272: MOV between registers, from memory and to memory at H:L. -/
def Obligations.MoveResults : Prop :=
  (∀ d r : Nat, d < 8 → d ≠ 6 → r < 8 → r ≠ 6 → encode (.movDS d r) = [BitVec.ofNat 8 (0x40 + 8 * d + r)] ∧
    ∀ s : State, exec (.movDS d r) s = .next (withReg s d (regAt s r))) ∧
  (∀ d : Nat, d < 8 → d ≠ 6 → encode (.movDM d) = [BitVec.ofNat 8 (0x46 + 8 * d)] ∧
    ∀ s : State, exec (.movDM d) s = .next (withReg s d (s.byteAt (pairAt s 2)))) ∧
  ∀ r : Nat, r < 8 → r ≠ 6 → encode (.movMS r) = [BitVec.ofNat 8 (0x70 + r)] ∧
    ∀ s : State, exec (.movMS r) s = .next (s.storeByte (pairAt s 2) (regAt s r))

/-- R273, R274: MVI to a register and to memory at H:L; a step of MVI ends two bytes after its opcode, modulo 2^16. -/
def Obligations.MoveImmediateResults : Prop :=
  ∀ v : Byte,
    (∀ d : Nat, d < 8 → d ≠ 6 → encode (.mviD d v) = [BitVec.ofNat 8 (0x06 + 8 * d), v] ∧
      ∀ s : State, exec (.mviD d v) s = .next (withReg s d v) ∧
        (s.status = .running → SpelledAtPc s (encode (.mviD d v)) →
          step s = .next { withReg s d v with pc := s.pc + 2 })) ∧
    encode (.mviM v) = [0x36, v] ∧ ∀ s : State, exec (.mviM v) s = .next (s.storeByte (pairAt s 2) v)

/-- R275: LXI writes a pair; index 3 is SP; the low byte of the immediate comes first. -/
def Obligations.LoadPairImmediateResult : Prop :=
  ∀ (p : Nat) (v : Word), p < 4 → encode (.lxi p v) = [BitVec.ofNat 8 (0x01 + 16 * p), lo8 v, hi8 v] ∧
    ∀ s : State, exec (.lxi p v) s = .next (withPair s p v)

/-- R276, R277: LDAX and STAX through BC and DE. -/
def Obligations.IndirectAccumulatorResults : Prop :=
  ∀ p : Nat, p < 2 →
    encode (.ldax p) = [BitVec.ofNat 8 (0x0A + 16 * p)] ∧ encode (.stax p) = [BitVec.ofNat 8 (0x02 + 16 * p)] ∧
    ∀ s : State,
      exec (.ldax p) s = .next { s with regs := { s.regs with a := s.byteAt (pairAt s p) } } ∧
      exec (.stax p) s = .next (s.storeByte (pairAt s p) s.regs.a)

/-- R278 to R281: SHLD, LHLD, STA and LDA; L is at the address and H at the address plus 1, modulo 2^16. -/
def Obligations.DirectAddressResults : Prop :=
  ∀ a : Word,
    encode (.shld a) = [0x22, lo8 a, hi8 a] ∧ encode (.lhld a) = [0x2A, lo8 a, hi8 a] ∧
    encode (.sta a) = [0x32, lo8 a, hi8 a] ∧ encode (.lda a) = [0x3A, lo8 a, hi8 a] ∧
    ∀ s : State,
      exec (.shld a) s = .next ((s.storeByte a s.regs.l).storeByte (a + 1) s.regs.h) ∧
      exec (.lhld a) s = .next { s with regs := { s.regs with l := s.byteAt a, h := s.byteAt (a + 1) } } ∧
      exec (.sta a) s = .next (s.storeByte a s.regs.a) ∧
      exec (.lda a) s = .next { s with regs := { s.regs with a := s.byteAt a } }

/-- R282: XCHG exchanges D with H and E with L. -/
def Obligations.ExchangePairsResult : Prop :=
  encode .xchg = [0xEB] ∧ ∀ s : State, exec .xchg s = .next
    { s with regs := { s.regs with d := s.regs.h, e := s.regs.l, h := s.regs.d, l := s.regs.e } }

/-! Control transfer. -/

/-- R232, R233, R238: JMP, Jccc and PCHL; a step of a jump not taken ends three bytes after its opcode. -/
def Obligations.JumpResults : Prop :=
  (∀ a : Word, encode (.jmp a) = [0xC3, lo8 a, hi8 a] ∧ ∀ s : State, exec (.jmp a) s = .next { s with pc := a }) ∧
  (∀ (c : Nat) (a : Word), c < 8 → encode (.jccc c a) = [BitVec.ofNat 8 (0xC2 + 8 * c), lo8 a, hi8 a] ∧
    ∀ s : State, exec (.jccc c a) s = .next (if conditionTrue s.flags c then { s with pc := a } else s) ∧
      (s.status = .running → SpelledAtPc s (encode (.jccc c a)) →
        step s = .next { s with pc := if conditionTrue s.flags c then a else s.pc + 3 })) ∧
  encode .pchl = [0xE9] ∧ ∀ s : State, exec .pchl s = .next { s with pc := joinBytes s.regs.h s.regs.l }

/-- R234, R235: CALL and Cccc push the address after the instruction, low byte at the lower address, and jump; a call not
taken changes nothing more. A step pushes the opcode's address plus 3, modulo 2^16. -/
def Obligations.CallResults : Prop :=
  let called (s : State) (a : Word) : State :=
    { (s.storeByte (s.sp - 2) (lo8 s.pc)).storeByte (s.sp - 1) (hi8 s.pc) with sp := s.sp - 2, pc := a }
  let past (s : State) : State := { s with pc := s.pc + 3 }
  (∀ a : Word, encode (.call a) = [0xCD, lo8 a, hi8 a] ∧ ∀ s : State, exec (.call a) s = .next (called s a) ∧
    (s.status = .running → SpelledAtPc s (encode (.call a)) → step s = .next (called (past s) a))) ∧
  ∀ (c : Nat) (a : Word), c < 8 → encode (.cccc c a) = [BitVec.ofNat 8 (0xC4 + 8 * c), lo8 a, hi8 a] ∧
    ∀ s : State, exec (.cccc c a) s = .next (if conditionTrue s.flags c then called s a else s) ∧
      (s.status = .running → SpelledAtPc s (encode (.cccc c a)) →
        step s = .next (if conditionTrue s.flags c then called (past s) a else past s))

/-- R236, R237: RET and Rccc pop `pc`; a return not taken changes nothing more, and its step ends one byte after its opcode;
`inte` is not changed. -/
def Obligations.ReturnResults : Prop :=
  let returned (s : State) : State :=
    { s with sp := s.sp + 2, pc := joinBytes (s.byteAt (s.sp + 1)) (s.byteAt s.sp) }
  encode .ret = [0xC9] ∧ (∀ s : State, exec .ret s = .next (returned s)) ∧
  ∀ c : Nat, c < 8 → encode (.rccc c) = [BitVec.ofNat 8 (0xC0 + 8 * c)] ∧
    ∀ s : State, exec (.rccc c) s = .next (if conditionTrue s.flags c then returned s else s) ∧
      (s.status = .running → SpelledAtPc s (encode (.rccc c)) →
        step s = .next (if conditionTrue s.flags c then returned s else { s with pc := s.pc + 1 }))

/-- R239: RST pushes `pc` and goes to 8 times its number, leaving `inte`; from memory it pushes the address after its byte,
injected the `pc` of the moment. -/
def Obligations.RestartResult : Prop :=
  let after (s : State) (n : BitVec 3) : State :=
    { (s.storeByte (s.sp - 2) (lo8 s.pc)).storeByte (s.sp - 1) (hi8 s.pc) with
      sp := s.sp - 2, pc := BitVec.ofNat 16 (8 * n.toNat) }
  ∀ n : BitVec 3, encode (.rst n) = [BitVec.ofNat 8 (0xC7 + 8 * n.toNat)] ∧
    ∀ s : State, exec (.rst n) s = .next (after s n) ∧
      (s.status = .running → SpelledAtPc s (encode (.rst n)) → step s = .next (after { s with pc := s.pc + 1 } n)) ∧
      (s.status = .running → s.inte = true →
        inject (BitVec.ofNat 8 (0xC7 + 8 * n.toNat)) s = .next { after s n with inte := false })

/-! The stack. -/

/-- R255, R260: PUSH and POP of BC, DE and HL. -/
def Obligations.PushPopPairResults : Prop :=
  ∀ p : Nat, p < 3 →
    encode (.pushRp p) = [BitVec.ofNat 8 (0xC5 + 16 * p)] ∧ encode (.popRp p) = [BitVec.ofNat 8 (0xC1 + 16 * p)] ∧
    ∀ s : State,
      exec (.pushRp p) s = .next
        { (s.storeByte (s.sp - 2) (lo8 (pairAt s p))).storeByte (s.sp - 1) (hi8 (pairAt s p)) with sp := s.sp - 2 } ∧
      exec (.popRp p) s = .next
        { withPair s p (joinBytes (s.byteAt (s.sp + 1)) (s.byteAt s.sp)) with sp := s.sp + 2 }

/-- R254, R256, R257: PUSH PSW stores A over the packed flags, POP PSW reads them back and is the only instruction that writes
AC; the unused bits 5, 3, 1 of a popped byte are lost: packing again gives 0, 0, 1 there. -/
def Obligations.PswPushPopResults : Prop :=
  encode .pushPsw = [0xF5] ∧ encode .popPsw = [0xF1] ∧
  (∀ s : State, let f := s.flags
    let packed := BitVec.ofNat 8
      (128 * f.s.toNat + 64 * f.z.toNat + 16 * f.ac.toNat + 4 * f.p.toNat + 2 + f.cy.toNat)
    exec .pushPsw s = .next
      { (s.storeByte (s.sp - 2) packed).storeByte (s.sp - 1) s.regs.a with sp := s.sp - 2 }) ∧
  (∀ s : State, let b := (s.byteAt s.sp).toNat
    exec .popPsw s = .next
      { s with
        regs := { s.regs with a := s.byteAt (s.sp + 1) }
        flags := { s := decide (b / 128 % 2 = 1), z := decide (b / 64 % 2 = 1), ac := decide (b / 16 % 2 = 1),
                   p := decide (b / 4 % 2 = 1), cy := decide (b % 2 = 1) }
        sp := s.sp + 2 }) ∧
  (∀ b : Byte, packF (unpackF b) = (b &&& 0xD7) ||| 0x02) ∧
  ∀ (i : Instr) (s t : State), i.wellFormed = true → exec i s = .next t → t.flags.ac ≠ s.flags.ac → i = .popPsw

/-- R258, R259: XTHL exchanges L with the byte at `sp` and H with the byte at `sp + 1`; SPHL copies H:L to `sp`. -/
def Obligations.ExchangeTopAndSphlResults : Prop :=
  encode .xthl = [0xE3] ∧ encode .sphl = [0xF9] ∧
  ∀ s : State,
    exec .xthl s = .next
      { (s.storeByte s.sp s.regs.l).storeByte (s.sp + 1) s.regs.h with
        regs := { s.regs with h := s.byteAt (s.sp + 1), l := s.byteAt s.sp } } ∧
    exec .sphl s = .next { s with sp := joinBytes s.regs.h s.regs.l }

/-- R252: popping after pushing gives the value back and `sp` its value before, in every state, and leaves the value's bytes at
the pushed addresses. -/
def Obligations.PopAfterPush : Prop :=
  ∀ (s : State) (v : Word), ∃ t u : State,
    push16 s v = .ok t ∧ pop16 t = .ok (v, u) ∧ u.sp = s.sp ∧
      u.byteAt (s.sp - 2) = lo8 v ∧ u.byteAt (s.sp - 1) = hi8 v

/-- R13, R74: a two-byte write at `a` puts the low byte at `a` and the high byte at `a + 1` modulo 2^16, and changes no other
byte; a one-byte read at `a` then gives the low byte, a two-byte read the value. -/
def Obligations.TwoByteAccess : Prop :=
  ∀ (s : State) (a v : Word), ∃ t : State,
    memWrite16 s a.toNat v = .ok t ∧ memRead16 t a.toNat = .ok v ∧ memRead8 t a.toNat = .ok (lo8 v) ∧
      memRead8 t (a + 1).toNat = .ok (hi8 v) ∧
      (∀ b : Word, b ≠ a → b ≠ a + 1 → memRead8 t b.toNat = memRead8 s b.toNat) ∧
      memRead16 s a.toNat = .ok (joinBytes (s.byteAt (a + 1)) (s.byteAt a))

/-! Input, output and machine control. -/

/-- R300: IN reads a latch into A and changes nothing else. -/
def Obligations.InPortResult : Prop :=
  ∀ p : Byte, encode (.inPort p) = [0xDB, p] ∧
    ∀ s : State, exec (.inPort p) s = .next { s with regs := { s.regs with a := s.latch p } }

/-- R301, R336, R337, R338: OUT 2 sets the shift amount, OUT 4 shifts A in from the top, each latches the visible result in
latch 3 and leaves every other latch; any other port changes nothing. -/
def Obligations.OutPortResult : Prop :=
  ∀ p : Byte, encode (.outPort p) = [0xD3, p] ∧
    ∀ s : State, ∃ t, exec (.outPort p) s = .next t ∧
      t.shamt = (if p = 2 then BitVec.ofNat 3 (s.regs.a.toNat % 8) else s.shamt) ∧
      t.shreg = (if p = 4 then BitVec.ofNat 16 (256 * s.regs.a.toNat + s.shreg.toNat / 256) else s.shreg) ∧
      (∀ q : Byte, t.latch q =
        if q = 3 ∧ (p = 2 ∨ p = 4) then BitVec.ofNat 8 (t.shreg.toNat / 2 ^ (8 - t.shamt.toNat)) else s.latch q) ∧
      { t with shamt := s.shamt, shreg := s.shreg, latches := s.latches } = s

/-- R303 to R306: EI and DI write `inte`, NOP changes nothing, HLT makes the status Halted, after which no step gives a next
state and no host action, an injection included, has any effect. -/
def Obligations.MachineControlResults : Prop :=
  encode .ei = [0xFB] ∧ encode .di = [0xF3] ∧ encode .nop = [0x00] ∧ encode .hlt = [0x76] ∧
  ∀ s : State,
    exec .ei s = .next { s with inte := true } ∧ exec .di s = .next { s with inte := false } ∧
    exec .nop s = .next s ∧ exec .hlt s = .next { s with status := .halted } ∧
    (∀ t : State, step { s with status := .halted } ≠ .next t) ∧
    ∀ act : HostAction, hostAct act { s with status := .halted } = .next { s with status := .halted }

/-! Interrupts and the host. -/

/-- R331: the four outcomes of the injection entry point, in the order of its tests. -/
def Obligations.InjectionResult : Prop :=
  ∀ (op : Byte) (s : State), inject op s =
    if s.status ≠ .running then .next s
    else if op &&& 0xC7 ≠ 0xC7 then .refused (.injectedNotRst op)
    else if s.inte = false then .next s
    else .next
      { (s.storeByte (s.sp - 2) (lo8 s.pc)).storeByte (s.sp - 1) (hi8 s.pc) with
        sp := s.sp - 2, pc := BitVec.ofNat 16 (op.toNat &&& 0x38), inte := false }

/-- R332, R334: after an accepted injection every further RST is dropped, as long as no step has come between. -/
def Obligations.SecondInjectionDropped : Prop :=
  ∀ (op op' : Byte) (s t : State), s.status = .running → s.inte = true → inject op s = .next t →
    op' &&& 0xC7 = 0xC7 → inject op' t = .next t

/-- R341, R343, R344, R345, R346: the display injects 0xCF, then 0xD7, and reads the 7168 bytes from 0x2400; the host may write
latch 1 only; no host action changes a state whose run has ended. Two clauses are the model's choice and no rule of the spec:
that a host write of another latch, which R340 and R343 give no move, is answered by a refusal (log entry 11, DEDUCED), and that
a termination is an action that answers the same state (log entry 9, DEDUCED from R345). -/
def Obligations.HostActionResults : Prop :=
  ∀ s : State,
    hostAct (.refresh .first) s = hostAct (.inject 0xCF) s ∧ hostAct (.refresh .second) s = hostAct (.inject 0xD7) s ∧
    (videoBytes s).length = 7168 ∧
    (∀ k, k < 7168 → (videoBytes s)[k]? = some (s.byteAt (BitVec.ofNat 16 (0x2400 + k)))) ∧
    hostAct .terminate s = .next s ∧
    (s.status = .running → ∀ p v : Byte, p ≠ 1 → hostAct (.writeLatch p v) s = .refused (.latchNotHostWritable p)) ∧
    (s.status = .running → ∀ v : Byte, ∃ t, hostAct (.writeLatch 1 v) s = .next t ∧
      (∀ q : Byte, t.latch q = if q = 1 then v else s.latch q) ∧ { t with latches := s.latches } = s) ∧
    (s.status ≠ .running → ∀ act : HostAction, hostAct act s = .next s)

/-! Reset and invariants. -/

/-- R47, R370, R371, R372: what reset with an image leaves in every piece of state. -/
def Obligations.ResetValues : Prop :=
  ∀ image : List Byte, let t := State.resetWith image
    t.regs = { b := 0, c := 0, d := 0, e := 0, h := 0, l := 0, a := 0 } ∧ t.sp = 0 ∧ t.pc = 0 ∧
    t.flags = { z := false, s := false, p := false, cy := false, ac := false } ∧ t.inte = true ∧
    (∀ p : Byte, t.latch p = 0) ∧ t.shreg = 0 ∧ t.shamt = 0 ∧ t.status = .running ∧
    ∀ a : Word, t.byteAt a = if a.toNat < 8192 then image.getD a.toNat 0 else 0

/-- Every step keeps the invariant: canonical memory and latches, the result latch equal to the shifter's visible result (R338,
R339), a status other than faulted. The canonical form is the model's choice and no rule of the spec (log entry 6, DESIGN
CHOICE), and so is that a faulted status is only in the state a fault carries, never in a next state (log entry 2, DESIGN
CHOICE). -/
def Obligations.StepKeepsInvariant : Prop :=
  ∀ s t : State, s.Inv → step s = .next t → t.Inv

/-- The reset state meets the invariant. The canonical form of its memory and latches is the model's choice (log entry 6, DESIGN
CHOICE), and so is that the reset state is the one of the empty image (log entry 4, DESIGN CHOICE). -/
def Obligations.ResetMeetsInvariant : Prop := State.reset.Inv

/-- Every state that any run reaches, from any image and under any schedule of host actions, meets the invariant. The canonical
form of memory and latches is the model's choice (log entry 6, DESIGN CHOICE), and so are that a faulted status is never in a
next state (log entry 2, DESIGN CHOICE) and that the host's actions are moves beside the step (log entry 5, DESIGN CHOICE). -/
def Obligations.ReachableStatesMeetInvariant : Prop := ∀ s : State, Reachable s → s.Inv

/-! Frames: what an instruction leaves unchanged. -/

/-- Every general register but an instruction's destinations is unchanged. -/
def Obligations.RegisterFrame : Prop :=
  ∀ (i : Instr) (s t : State), i.wellFormed = true → exec i s = .next t →
    ∀ n : RegName, n ∉ destRegs i → t.regs.get n = s.regs.get n

/-- R38: an instruction outside the table's rows writes no flag; the carry rows write CY only; the result rows leave AC. -/
def Obligations.FlagFrame : Prop :=
  ∀ (i : Instr) (s t : State), i.wellFormed = true → exec i s = .next t →
    (flagClass i = .none → t.flags = s.flags) ∧
    (flagClass i = .carry → { t.flags with cy := s.flags.cy } = s.flags) ∧
    (flagClass i = .allButAc → t.flags.ac = s.flags.ac)

/-- Every byte of memory outside an instruction's store site is unchanged, and all of memory where it has none. -/
def Obligations.MemoryFrame : Prop :=
  ∀ (i : Instr) (s t : State), i.wellFormed = true → exec i s = .next t →
    ∀ a : Word, ¬ inSite a (storeSite i s) → t.byteAt a = s.byteAt a

/-- The rest of the state: `sp` but for R36's writers, `pc` but for the control transfers, `inte` but for EI and DI, the latches
and the shifter but for OUT 2 and OUT 4, the run status but for HLT. -/
def Obligations.ControlStateFrame : Prop :=
  ∀ (i : Instr) (s t : State), i.wellFormed = true → exec i s = .next t →
    (writesSp i = false → t.sp = s.sp) ∧ (isTransfer i = false → t.pc = s.pc) ∧
    (i ≠ .ei → i ≠ .di → t.inte = s.inte) ∧
    (i ≠ .outPort 2 → i ≠ .outPort 4 → t.latches = s.latches ∧ t.shreg = s.shreg ∧ t.shamt = s.shamt) ∧
    (i ≠ .outPort 4 → t.shreg = s.shreg) ∧ (i ≠ .outPort 2 → t.shamt = s.shamt) ∧
    (i ≠ .hlt → t.status = s.status)

/-! Rules of the whole machine. -/

/-- R142: after a step that ran no control transfer, `pc` is the opcode's address plus the instruction's length. -/
def Obligations.PcAfterStraightStep : Prop :=
  ∀ (s t : State) (i : Instr) (rest : List Byte), step s = .next t →
    decode [s.byteAt s.pc, s.byteAt (s.pc + 1), s.byteAt (s.pc + 2)] = .ok (i, rest) → isTransfer i = false →
    t.pc = s.pc + BitVec.ofNat 16 i.length

/-- R39: a step that changes the auxiliary carry ran POP PSW. -/
def Obligations.AuxiliaryCarryOnlyByPopPsw : Prop :=
  ∀ s t : State, step s = .next t → t.flags.ac ≠ s.flags.ac → s.byteAt s.pc = 0xF1

/-- R41: a step that changes `inte` ran EI, which sets it, or DI, which clears it. -/
def Obligations.InterruptEnableOnlyByEiDi : Prop :=
  ∀ s t : State, step s = .next t → t.inte ≠ s.inte →
    (s.byteAt s.pc = 0xFB ∧ t.inte = true) ∨ (s.byteAt s.pc = 0xF3 ∧ t.inte = false)

/-- R43, R339: a step that changes a latch ran OUT 2 or OUT 4, and the latch is latch 3. -/
def Obligations.LatchesOnlyByShifter : Prop :=
  ∀ (s t : State) (q : Byte), step s = .next t → t.latch q ≠ s.latch q →
    q = 3 ∧ s.byteAt s.pc = 0xD3 ∧ (s.byteAt (s.pc + 1) = 2 ∨ s.byteAt (s.pc + 1) = 4)

/-- Reset gives `State.reset` from the empty image, and from exactly those images whose first 8192 bytes are zeros; two images
give one state exactly when their first 8192 bytes agree, an image that ends before them counting as zeros from there on (R372).
That `State.reset` is the state of the empty image is the model's choice (log entry 4, DESIGN CHOICE), and so is the canonical
form, by which memories that read alike are one list (log entry 6, DESIGN CHOICE). -/
def Obligations.ResetStateIsEmptyImage : Prop :=
  ∀ image : List Byte,
    (State.resetWith image = State.reset ↔ ∀ k, k < 8192 → image.getD k 0 = 0) ∧
    ∀ image' : List Byte,
      State.resetWith image = State.resetWith image' ↔ ∀ k, k < 8192 → image.getD k 0 = image'.getD k 0
end

