-- ==== Sys2Proof/Laws/Cells.lean ====
section
/-! SUPPORT. Reading after writing, and the canonical form, for the cells that hold memory and latches. -/

namespace Sys2Proof.Machine

theorem cellRead_insert (m : List Host.Cell) (a b : Nat) (v : Byte) :
    cellRead (cellInsert m a v) b = if b = a then v else cellRead m b := by
  induction m with
  | nil => simp [cellInsert, cellRead, eq_comm]
  | cons cell rest ih =>
    obtain ⟨k, x⟩ := cell
    unfold cellInsert
    split
    · by_cases hb : b = a
      · subst hb
        rw [cellRead, if_pos rfl]
      · rw [cellRead, if_neg (Ne.symm hb), if_neg hb]
    · split
      · subst a
        by_cases hb : b = k
        · subst hb
          simp [cellRead]
        · rw [if_neg hb, cellRead, cellRead, if_neg (Ne.symm hb), if_neg (Ne.symm hb)]
      · rw [cellRead, cellRead, ih]
        by_cases hb : b = a
        · subst hb
          rename_i hk
          rw [if_neg (Ne.symm hk), if_pos rfl, if_pos rfl]
        · rw [if_neg hb, if_neg hb]

theorem cellRead_filter (m : List Host.Cell) (a b : Nat) :
    cellRead (m.filter (fun cell => cell.1 != a)) b = if b = a then unlistedByte else cellRead m b := by
  induction m with
  | nil => simp [cellRead]
  | cons cell rest ih =>
    obtain ⟨k, x⟩ := cell
    by_cases hk : k = a
    · subst k
      simp only [List.filter, bne_self_eq_false, ih, cellRead]
      split <;> simp_all [eq_comm]
    · have : (k != a) = true := by simp [hk]
      simp only [List.filter, this, cellRead, ih]
      split <;> split <;> simp_all

/-- Every read after a write: the byte written at its own address, and what was there before at every other. It holds for
every list, in canonical form or not. -/
theorem cellRead_write (m : List Host.Cell) (a b : Nat) (v : Byte) :
    cellRead (cellWrite m a v) b = if b = a then v else cellRead m b := by
  unfold cellWrite
  split
  · rename_i h
    subst h
    exact cellRead_filter m a b
  · exact cellRead_insert m a b v

theorem cellInsert_mem {m : List Host.Cell} {a : Nat} {v : Byte} {cell : Host.Cell}
    (h : cell ∈ cellInsert m a v) : cell = (a, v) ∨ cell ∈ m := by
  induction m with
  | nil => simpa [cellInsert] using h
  | cons head rest ih =>
    obtain ⟨k, x⟩ := head
    unfold cellInsert at h
    split at h
    · simpa using h
    · split at h
      · simp only [List.mem_cons] at h ⊢
        tauto
      · simp only [List.mem_cons] at h ⊢
        rcases h with h | h
        · tauto
        · have := ih h
          tauto

theorem cellInsert_pairwise {m : List Host.Cell} (a : Nat) (v : Byte)
    (h : m.Pairwise (fun x y => x.1 < y.1)) : (cellInsert m a v).Pairwise (fun x y => x.1 < y.1) := by
  induction m with
  | nil => simp [cellInsert]
  | cons head rest ih =>
    obtain ⟨k, x⟩ := head
    rw [List.pairwise_cons] at h
    obtain ⟨hk, hrest⟩ := h
    unfold cellInsert
    split
    · rename_i hak
      refine List.pairwise_cons.2 ⟨?_, List.pairwise_cons.2 ⟨hk, hrest⟩⟩
      intro y hy
      rcases List.mem_cons.1 hy with rfl | hy
      · exact hak
      · exact lt_trans hak (hk y hy)
    · split
      · rename_i _ hak
        subst hak
        exact List.pairwise_cons.2 ⟨hk, hrest⟩
      · refine List.pairwise_cons.2 ⟨?_, ih hrest⟩
        intro y hy
        rcases cellInsert_mem hy with rfl | hy
        · simp only
          omega
        · exact hk y hy

/-- Every write below the bound keeps the canonical form. -/
theorem cellsOk_write {bound : Nat} {m : List Host.Cell} (a : Nat) (v : Byte) (ha : a < bound)
    (h : cellsOk bound m) : cellsOk bound (cellWrite m a v) := by
  obtain ⟨hp, hc⟩ := h
  unfold cellWrite
  split
  · exact ⟨hp.filter _, fun cell hcell => hc cell (List.mem_filter.1 hcell).1⟩
  · rename_i hv
    refine ⟨cellInsert_pairwise a v hp, fun cell hcell => ?_⟩
    rcases cellInsert_mem hcell with rfl | hcell
    · exact ⟨ha, hv⟩
    · exact hc cell hcell

theorem cellsOk_nil (bound : Nat) : cellsOk bound [] := ⟨List.Pairwise.nil, by simp⟩

/-- A read of the byte an address holds is the listed one. -/
theorem cellRead_of_mem {bound : Nat} {m : List Host.Cell} (h : cellsOk bound m) {a : Nat} {v : Byte}
    (hm : (a, v) ∈ m) : cellRead m a = v := by
  have hp := h.1
  clear h
  induction m with
  | nil => simp at hm
  | cons head rest ih =>
    obtain ⟨k, x⟩ := head
    rw [List.pairwise_cons] at hp
    rcases List.mem_cons.1 hm with heq | hm
    · cases heq
      simp [cellRead]
    · have : k < a := hp.1 _ hm
      have hne : ¬ k = a := by omega
      simp only [cellRead, if_neg hne]
      exact ih hm hp.2

/-- An address below every listed one reads as an unlisted address. -/
theorem cellRead_of_forall_lt {m : List Host.Cell} {a : Nat} (h : ∀ cell ∈ m, a < cell.1) :
    cellRead m a = unlistedByte := by
  induction m with
  | nil => rfl
  | cons head rest ih =>
    obtain ⟨k, x⟩ := head
    rw [List.forall_mem_cons] at h
    rw [cellRead, if_neg (ne_of_gt h.1)]
    exact ih h.2

/-- Cells in canonical form that read alike at every address below the bound are the same list. -/
theorem cells_ext {bound : Nat} {m n : List Host.Cell} (hm : cellsOk bound m) (hn : cellsOk bound n)
    (h : ∀ a, a < bound → cellRead m a = cellRead n a) : m = n := by
  induction m generalizing n with
  | nil =>
    cases n with
    | nil => rfl
    | cons head rest =>
      have ok := hn.2 head List.mem_cons_self
      exact absurd ((cellRead_of_mem hn List.mem_cons_self).symm.trans (h _ ok.1).symm) ok.2
  | cons p m ih =>
    cases n with
    | nil =>
      have ok := hm.2 p List.mem_cons_self
      exact absurd ((cellRead_of_mem hm List.mem_cons_self).symm.trans (h _ ok.1)) ok.2
    | cons q n =>
      have hp := List.pairwise_cons.1 hm.1
      have hq := List.pairwise_cons.1 hn.1
      have okP := hm.2 p List.mem_cons_self
      have okQ := hn.2 q List.mem_cons_self
      have readP := cellRead_of_mem hm (List.mem_cons_self (a := p))
      have readQ := cellRead_of_mem hn (List.mem_cons_self (a := q))
      have keys : p.1 = q.1 := by
        rcases lt_trichotomy p.1 q.1 with hlt | heq | hlt
        · exact absurd (readP.symm.trans ((h _ okP.1).trans (cellRead_of_forall_lt
            (List.forall_mem_cons.2 ⟨hlt, fun c hc => lt_trans hlt (hq.1 c hc)⟩)))) okP.2
        · exact heq
        · exact absurd (readQ.symm.trans ((h _ okQ.1).symm.trans (cellRead_of_forall_lt
            (List.forall_mem_cons.2 ⟨hlt, fun c hc => lt_trans hlt (hp.1 c hc)⟩)))) okQ.2
      have heads : p = q := Prod.ext keys (by rw [← readP, ← readQ, h _ okP.1, keys])
      subst heads
      refine congrArg _ (ih ⟨hp.2, fun c hc => hm.2 c (List.mem_cons_of_mem _ hc)⟩
        ⟨hq.2, fun c hc => hn.2 c (List.mem_cons_of_mem _ hc)⟩ fun a hb => ?_)
      by_cases ha : p.1 < a
      · simpa [cellRead, ne_of_lt ha] using h a hb
      · rw [cellRead_of_forall_lt fun c hc => lt_of_le_of_lt (not_lt.1 ha) (hp.1 c hc),
          cellRead_of_forall_lt fun c hc => lt_of_le_of_lt (not_lt.1 ha) (hq.1 c hc)]

end Sys2Proof.Machine
end

