-- ==== Sys2Proof/Laws/State.lean ====
section
/-! SUPPORT. One lemma per field per update of the state, each true by unfolding the update. -/

namespace Sys2Proof.Machine

/-! setRegs -/

@[simp] theorem State.setRegs_regs (s : State) (v : Regs) : (s.setRegs v).regs = v := rfl
@[simp] theorem State.setRegs_sp (s : State) (v : Regs) : (s.setRegs v).sp = s.sp := rfl
@[simp] theorem State.setRegs_pc (s : State) (v : Regs) : (s.setRegs v).pc = s.pc := rfl
@[simp] theorem State.setRegs_flags (s : State) (v : Regs) : (s.setRegs v).flags = s.flags := rfl
@[simp] theorem State.setRegs_inte (s : State) (v : Regs) : (s.setRegs v).inte = s.inte := rfl
@[simp] theorem State.setRegs_latches (s : State) (v : Regs) : (s.setRegs v).latches = s.latches := rfl
@[simp] theorem State.setRegs_mem (s : State) (v : Regs) : (s.setRegs v).mem = s.mem := rfl
@[simp] theorem State.setRegs_shreg (s : State) (v : Regs) : (s.setRegs v).shreg = s.shreg := rfl
@[simp] theorem State.setRegs_shamt (s : State) (v : Regs) : (s.setRegs v).shamt = s.shamt := rfl
@[simp] theorem State.setRegs_status (s : State) (v : Regs) : (s.setRegs v).status = s.status := rfl

/-! setSp -/

@[simp] theorem State.setSp_regs (s : State) (v : Word) : (s.setSp v).regs = s.regs := rfl
@[simp] theorem State.setSp_sp (s : State) (v : Word) : (s.setSp v).sp = v := rfl
@[simp] theorem State.setSp_pc (s : State) (v : Word) : (s.setSp v).pc = s.pc := rfl
@[simp] theorem State.setSp_flags (s : State) (v : Word) : (s.setSp v).flags = s.flags := rfl
@[simp] theorem State.setSp_inte (s : State) (v : Word) : (s.setSp v).inte = s.inte := rfl
@[simp] theorem State.setSp_latches (s : State) (v : Word) : (s.setSp v).latches = s.latches := rfl
@[simp] theorem State.setSp_mem (s : State) (v : Word) : (s.setSp v).mem = s.mem := rfl
@[simp] theorem State.setSp_shreg (s : State) (v : Word) : (s.setSp v).shreg = s.shreg := rfl
@[simp] theorem State.setSp_shamt (s : State) (v : Word) : (s.setSp v).shamt = s.shamt := rfl
@[simp] theorem State.setSp_status (s : State) (v : Word) : (s.setSp v).status = s.status := rfl

/-! setPc -/

@[simp] theorem State.setPc_regs (s : State) (v : Word) : (s.setPc v).regs = s.regs := rfl
@[simp] theorem State.setPc_sp (s : State) (v : Word) : (s.setPc v).sp = s.sp := rfl
@[simp] theorem State.setPc_pc (s : State) (v : Word) : (s.setPc v).pc = v := rfl
@[simp] theorem State.setPc_flags (s : State) (v : Word) : (s.setPc v).flags = s.flags := rfl
@[simp] theorem State.setPc_inte (s : State) (v : Word) : (s.setPc v).inte = s.inte := rfl
@[simp] theorem State.setPc_latches (s : State) (v : Word) : (s.setPc v).latches = s.latches := rfl
@[simp] theorem State.setPc_mem (s : State) (v : Word) : (s.setPc v).mem = s.mem := rfl
@[simp] theorem State.setPc_shreg (s : State) (v : Word) : (s.setPc v).shreg = s.shreg := rfl
@[simp] theorem State.setPc_shamt (s : State) (v : Word) : (s.setPc v).shamt = s.shamt := rfl
@[simp] theorem State.setPc_status (s : State) (v : Word) : (s.setPc v).status = s.status := rfl

/-! setFlags -/

@[simp] theorem State.setFlags_regs (s : State) (v : Flags) : (s.setFlags v).regs = s.regs := rfl
@[simp] theorem State.setFlags_sp (s : State) (v : Flags) : (s.setFlags v).sp = s.sp := rfl
@[simp] theorem State.setFlags_pc (s : State) (v : Flags) : (s.setFlags v).pc = s.pc := rfl
@[simp] theorem State.setFlags_flags (s : State) (v : Flags) : (s.setFlags v).flags = v := rfl
@[simp] theorem State.setFlags_inte (s : State) (v : Flags) : (s.setFlags v).inte = s.inte := rfl
@[simp] theorem State.setFlags_latches (s : State) (v : Flags) : (s.setFlags v).latches = s.latches := rfl
@[simp] theorem State.setFlags_mem (s : State) (v : Flags) : (s.setFlags v).mem = s.mem := rfl
@[simp] theorem State.setFlags_shreg (s : State) (v : Flags) : (s.setFlags v).shreg = s.shreg := rfl
@[simp] theorem State.setFlags_shamt (s : State) (v : Flags) : (s.setFlags v).shamt = s.shamt := rfl
@[simp] theorem State.setFlags_status (s : State) (v : Flags) : (s.setFlags v).status = s.status := rfl

/-! setInte -/

@[simp] theorem State.setInte_regs (s : State) (v : Bool) : (s.setInte v).regs = s.regs := rfl
@[simp] theorem State.setInte_sp (s : State) (v : Bool) : (s.setInte v).sp = s.sp := rfl
@[simp] theorem State.setInte_pc (s : State) (v : Bool) : (s.setInte v).pc = s.pc := rfl
@[simp] theorem State.setInte_flags (s : State) (v : Bool) : (s.setInte v).flags = s.flags := rfl
@[simp] theorem State.setInte_inte (s : State) (v : Bool) : (s.setInte v).inte = v := rfl
@[simp] theorem State.setInte_latches (s : State) (v : Bool) : (s.setInte v).latches = s.latches := rfl
@[simp] theorem State.setInte_mem (s : State) (v : Bool) : (s.setInte v).mem = s.mem := rfl
@[simp] theorem State.setInte_shreg (s : State) (v : Bool) : (s.setInte v).shreg = s.shreg := rfl
@[simp] theorem State.setInte_shamt (s : State) (v : Bool) : (s.setInte v).shamt = s.shamt := rfl
@[simp] theorem State.setInte_status (s : State) (v : Bool) : (s.setInte v).status = s.status := rfl

/-! setLatches -/

@[simp] theorem State.setLatches_regs (s : State) (v : Latches) : (s.setLatches v).regs = s.regs := rfl
@[simp] theorem State.setLatches_sp (s : State) (v : Latches) : (s.setLatches v).sp = s.sp := rfl
@[simp] theorem State.setLatches_pc (s : State) (v : Latches) : (s.setLatches v).pc = s.pc := rfl
@[simp] theorem State.setLatches_flags (s : State) (v : Latches) : (s.setLatches v).flags = s.flags := rfl
@[simp] theorem State.setLatches_inte (s : State) (v : Latches) : (s.setLatches v).inte = s.inte := rfl
@[simp] theorem State.setLatches_latches (s : State) (v : Latches) : (s.setLatches v).latches = v := rfl
@[simp] theorem State.setLatches_mem (s : State) (v : Latches) : (s.setLatches v).mem = s.mem := rfl
@[simp] theorem State.setLatches_shreg (s : State) (v : Latches) : (s.setLatches v).shreg = s.shreg := rfl
@[simp] theorem State.setLatches_shamt (s : State) (v : Latches) : (s.setLatches v).shamt = s.shamt := rfl
@[simp] theorem State.setLatches_status (s : State) (v : Latches) : (s.setLatches v).status = s.status := rfl

/-! setMem -/

@[simp] theorem State.setMem_regs (s : State) (v : Memory) : (s.setMem v).regs = s.regs := rfl
@[simp] theorem State.setMem_sp (s : State) (v : Memory) : (s.setMem v).sp = s.sp := rfl
@[simp] theorem State.setMem_pc (s : State) (v : Memory) : (s.setMem v).pc = s.pc := rfl
@[simp] theorem State.setMem_flags (s : State) (v : Memory) : (s.setMem v).flags = s.flags := rfl
@[simp] theorem State.setMem_inte (s : State) (v : Memory) : (s.setMem v).inte = s.inte := rfl
@[simp] theorem State.setMem_latches (s : State) (v : Memory) : (s.setMem v).latches = s.latches := rfl
@[simp] theorem State.setMem_mem (s : State) (v : Memory) : (s.setMem v).mem = v := rfl
@[simp] theorem State.setMem_shreg (s : State) (v : Memory) : (s.setMem v).shreg = s.shreg := rfl
@[simp] theorem State.setMem_shamt (s : State) (v : Memory) : (s.setMem v).shamt = s.shamt := rfl
@[simp] theorem State.setMem_status (s : State) (v : Memory) : (s.setMem v).status = s.status := rfl

/-! setShreg -/

@[simp] theorem State.setShreg_regs (s : State) (v : Word) : (s.setShreg v).regs = s.regs := rfl
@[simp] theorem State.setShreg_sp (s : State) (v : Word) : (s.setShreg v).sp = s.sp := rfl
@[simp] theorem State.setShreg_pc (s : State) (v : Word) : (s.setShreg v).pc = s.pc := rfl
@[simp] theorem State.setShreg_flags (s : State) (v : Word) : (s.setShreg v).flags = s.flags := rfl
@[simp] theorem State.setShreg_inte (s : State) (v : Word) : (s.setShreg v).inte = s.inte := rfl
@[simp] theorem State.setShreg_latches (s : State) (v : Word) : (s.setShreg v).latches = s.latches := rfl
@[simp] theorem State.setShreg_mem (s : State) (v : Word) : (s.setShreg v).mem = s.mem := rfl
@[simp] theorem State.setShreg_shreg (s : State) (v : Word) : (s.setShreg v).shreg = v := rfl
@[simp] theorem State.setShreg_shamt (s : State) (v : Word) : (s.setShreg v).shamt = s.shamt := rfl
@[simp] theorem State.setShreg_status (s : State) (v : Word) : (s.setShreg v).status = s.status := rfl

/-! setShamt -/

@[simp] theorem State.setShamt_regs (s : State) (v : BitVec 3) : (s.setShamt v).regs = s.regs := rfl
@[simp] theorem State.setShamt_sp (s : State) (v : BitVec 3) : (s.setShamt v).sp = s.sp := rfl
@[simp] theorem State.setShamt_pc (s : State) (v : BitVec 3) : (s.setShamt v).pc = s.pc := rfl
@[simp] theorem State.setShamt_flags (s : State) (v : BitVec 3) : (s.setShamt v).flags = s.flags := rfl
@[simp] theorem State.setShamt_inte (s : State) (v : BitVec 3) : (s.setShamt v).inte = s.inte := rfl
@[simp] theorem State.setShamt_latches (s : State) (v : BitVec 3) : (s.setShamt v).latches = s.latches := rfl
@[simp] theorem State.setShamt_mem (s : State) (v : BitVec 3) : (s.setShamt v).mem = s.mem := rfl
@[simp] theorem State.setShamt_shreg (s : State) (v : BitVec 3) : (s.setShamt v).shreg = s.shreg := rfl
@[simp] theorem State.setShamt_shamt (s : State) (v : BitVec 3) : (s.setShamt v).shamt = v := rfl
@[simp] theorem State.setShamt_status (s : State) (v : BitVec 3) : (s.setShamt v).status = s.status := rfl

/-! setStatus -/

@[simp] theorem State.setStatus_regs (s : State) (v : Status) : (s.setStatus v).regs = s.regs := rfl
@[simp] theorem State.setStatus_sp (s : State) (v : Status) : (s.setStatus v).sp = s.sp := rfl
@[simp] theorem State.setStatus_pc (s : State) (v : Status) : (s.setStatus v).pc = s.pc := rfl
@[simp] theorem State.setStatus_flags (s : State) (v : Status) : (s.setStatus v).flags = s.flags := rfl
@[simp] theorem State.setStatus_inte (s : State) (v : Status) : (s.setStatus v).inte = s.inte := rfl
@[simp] theorem State.setStatus_latches (s : State) (v : Status) : (s.setStatus v).latches = s.latches := rfl
@[simp] theorem State.setStatus_mem (s : State) (v : Status) : (s.setStatus v).mem = s.mem := rfl
@[simp] theorem State.setStatus_shreg (s : State) (v : Status) : (s.setStatus v).shreg = s.shreg := rfl
@[simp] theorem State.setStatus_shamt (s : State) (v : Status) : (s.setStatus v).shamt = s.shamt := rfl
@[simp] theorem State.setStatus_status (s : State) (v : Status) : (s.setStatus v).status = v := rfl

/-! setReg -/

@[simp] theorem State.setReg_regs (s : State) (n : RegName) (v : Byte) : (s.setReg n v).regs = s.regs.set n v := rfl
@[simp] theorem State.setReg_sp (s : State) (n : RegName) (v : Byte) : (s.setReg n v).sp = s.sp := rfl
@[simp] theorem State.setReg_pc (s : State) (n : RegName) (v : Byte) : (s.setReg n v).pc = s.pc := rfl
@[simp] theorem State.setReg_flags (s : State) (n : RegName) (v : Byte) : (s.setReg n v).flags = s.flags := rfl
@[simp] theorem State.setReg_inte (s : State) (n : RegName) (v : Byte) : (s.setReg n v).inte = s.inte := rfl
@[simp] theorem State.setReg_latches (s : State) (n : RegName) (v : Byte) : (s.setReg n v).latches = s.latches := rfl
@[simp] theorem State.setReg_mem (s : State) (n : RegName) (v : Byte) : (s.setReg n v).mem = s.mem := rfl
@[simp] theorem State.setReg_shreg (s : State) (n : RegName) (v : Byte) : (s.setReg n v).shreg = s.shreg := rfl
@[simp] theorem State.setReg_shamt (s : State) (n : RegName) (v : Byte) : (s.setReg n v).shamt = s.shamt := rfl
@[simp] theorem State.setReg_status (s : State) (n : RegName) (v : Byte) : (s.setReg n v).status = s.status := rfl

/-! setBc -/

@[simp] theorem State.setBc_regs (s : State) (v : Word) : (s.setBc v).regs = (s.regs.set .b (hi8 v)).set .c (lo8 v) := rfl
@[simp] theorem State.setBc_sp (s : State) (v : Word) : (s.setBc v).sp = s.sp := rfl
@[simp] theorem State.setBc_pc (s : State) (v : Word) : (s.setBc v).pc = s.pc := rfl
@[simp] theorem State.setBc_flags (s : State) (v : Word) : (s.setBc v).flags = s.flags := rfl
@[simp] theorem State.setBc_inte (s : State) (v : Word) : (s.setBc v).inte = s.inte := rfl
@[simp] theorem State.setBc_latches (s : State) (v : Word) : (s.setBc v).latches = s.latches := rfl
@[simp] theorem State.setBc_mem (s : State) (v : Word) : (s.setBc v).mem = s.mem := rfl
@[simp] theorem State.setBc_shreg (s : State) (v : Word) : (s.setBc v).shreg = s.shreg := rfl
@[simp] theorem State.setBc_shamt (s : State) (v : Word) : (s.setBc v).shamt = s.shamt := rfl
@[simp] theorem State.setBc_status (s : State) (v : Word) : (s.setBc v).status = s.status := rfl

/-! setDe -/

@[simp] theorem State.setDe_regs (s : State) (v : Word) : (s.setDe v).regs = (s.regs.set .d (hi8 v)).set .e (lo8 v) := rfl
@[simp] theorem State.setDe_sp (s : State) (v : Word) : (s.setDe v).sp = s.sp := rfl
@[simp] theorem State.setDe_pc (s : State) (v : Word) : (s.setDe v).pc = s.pc := rfl
@[simp] theorem State.setDe_flags (s : State) (v : Word) : (s.setDe v).flags = s.flags := rfl
@[simp] theorem State.setDe_inte (s : State) (v : Word) : (s.setDe v).inte = s.inte := rfl
@[simp] theorem State.setDe_latches (s : State) (v : Word) : (s.setDe v).latches = s.latches := rfl
@[simp] theorem State.setDe_mem (s : State) (v : Word) : (s.setDe v).mem = s.mem := rfl
@[simp] theorem State.setDe_shreg (s : State) (v : Word) : (s.setDe v).shreg = s.shreg := rfl
@[simp] theorem State.setDe_shamt (s : State) (v : Word) : (s.setDe v).shamt = s.shamt := rfl
@[simp] theorem State.setDe_status (s : State) (v : Word) : (s.setDe v).status = s.status := rfl

/-! setHl -/

@[simp] theorem State.setHl_regs (s : State) (v : Word) : (s.setHl v).regs = (s.regs.set .h (hi8 v)).set .l (lo8 v) := rfl
@[simp] theorem State.setHl_sp (s : State) (v : Word) : (s.setHl v).sp = s.sp := rfl
@[simp] theorem State.setHl_pc (s : State) (v : Word) : (s.setHl v).pc = s.pc := rfl
@[simp] theorem State.setHl_flags (s : State) (v : Word) : (s.setHl v).flags = s.flags := rfl
@[simp] theorem State.setHl_inte (s : State) (v : Word) : (s.setHl v).inte = s.inte := rfl
@[simp] theorem State.setHl_latches (s : State) (v : Word) : (s.setHl v).latches = s.latches := rfl
@[simp] theorem State.setHl_mem (s : State) (v : Word) : (s.setHl v).mem = s.mem := rfl
@[simp] theorem State.setHl_shreg (s : State) (v : Word) : (s.setHl v).shreg = s.shreg := rfl
@[simp] theorem State.setHl_shamt (s : State) (v : Word) : (s.setHl v).shamt = s.shamt := rfl
@[simp] theorem State.setHl_status (s : State) (v : Word) : (s.setHl v).status = s.status := rfl

/-! accumulate -/

@[simp] theorem State.accumulate_regs (s : State) (r : Byte × Flags) : (s.accumulate r).regs = s.regs.set .a r.1 := rfl
@[simp] theorem State.accumulate_sp (s : State) (r : Byte × Flags) : (s.accumulate r).sp = s.sp := rfl
@[simp] theorem State.accumulate_pc (s : State) (r : Byte × Flags) : (s.accumulate r).pc = s.pc := rfl
@[simp] theorem State.accumulate_flags (s : State) (r : Byte × Flags) : (s.accumulate r).flags = r.2 := rfl
@[simp] theorem State.accumulate_inte (s : State) (r : Byte × Flags) : (s.accumulate r).inte = s.inte := rfl
@[simp] theorem State.accumulate_latches (s : State) (r : Byte × Flags) : (s.accumulate r).latches = s.latches := rfl
@[simp] theorem State.accumulate_mem (s : State) (r : Byte × Flags) : (s.accumulate r).mem = s.mem := rfl
@[simp] theorem State.accumulate_shreg (s : State) (r : Byte × Flags) : (s.accumulate r).shreg = s.shreg := rfl
@[simp] theorem State.accumulate_shamt (s : State) (r : Byte × Flags) : (s.accumulate r).shamt = s.shamt := rfl
@[simp] theorem State.accumulate_status (s : State) (r : Byte × Flags) : (s.accumulate r).status = s.status := rfl

/-! storeByte -/

@[simp] theorem State.storeByte_regs (s : State) (a : Word) (v : Byte) : (s.storeByte a v).regs = s.regs := rfl
@[simp] theorem State.storeByte_sp (s : State) (a : Word) (v : Byte) : (s.storeByte a v).sp = s.sp := rfl
@[simp] theorem State.storeByte_pc (s : State) (a : Word) (v : Byte) : (s.storeByte a v).pc = s.pc := rfl
@[simp] theorem State.storeByte_flags (s : State) (a : Word) (v : Byte) : (s.storeByte a v).flags = s.flags := rfl
@[simp] theorem State.storeByte_inte (s : State) (a : Word) (v : Byte) : (s.storeByte a v).inte = s.inte := rfl
@[simp] theorem State.storeByte_latches (s : State) (a : Word) (v : Byte) : (s.storeByte a v).latches = s.latches := rfl
@[simp] theorem State.storeByte_mem (s : State) (a : Word) (v : Byte) : (s.storeByte a v).mem = cellWrite s.mem a.toNat v := rfl
@[simp] theorem State.storeByte_shreg (s : State) (a : Word) (v : Byte) : (s.storeByte a v).shreg = s.shreg := rfl
@[simp] theorem State.storeByte_shamt (s : State) (a : Word) (v : Byte) : (s.storeByte a v).shamt = s.shamt := rfl
@[simp] theorem State.storeByte_status (s : State) (a : Word) (v : Byte) : (s.storeByte a v).status = s.status := rfl

/-! storeWord -/

@[simp] theorem State.storeWord_regs (s : State) (a v : Word) : (s.storeWord a v).regs = s.regs := rfl
@[simp] theorem State.storeWord_sp (s : State) (a v : Word) : (s.storeWord a v).sp = s.sp := rfl
@[simp] theorem State.storeWord_pc (s : State) (a v : Word) : (s.storeWord a v).pc = s.pc := rfl
@[simp] theorem State.storeWord_flags (s : State) (a v : Word) : (s.storeWord a v).flags = s.flags := rfl
@[simp] theorem State.storeWord_inte (s : State) (a v : Word) : (s.storeWord a v).inte = s.inte := rfl
@[simp] theorem State.storeWord_latches (s : State) (a v : Word) : (s.storeWord a v).latches = s.latches := rfl
@[simp] theorem State.storeWord_mem (s : State) (a v : Word) : (s.storeWord a v).mem = cellWrite (cellWrite s.mem a.toNat (lo8 v)) (a + 1).toNat (hi8 v) := rfl
@[simp] theorem State.storeWord_shreg (s : State) (a v : Word) : (s.storeWord a v).shreg = s.shreg := rfl
@[simp] theorem State.storeWord_shamt (s : State) (a v : Word) : (s.storeWord a v).shamt = s.shamt := rfl
@[simp] theorem State.storeWord_status (s : State) (a v : Word) : (s.storeWord a v).status = s.status := rfl

/-! setLatch -/

@[simp] theorem State.setLatch_regs (s : State) (p v : Byte) : (s.setLatch p v).regs = s.regs := rfl
@[simp] theorem State.setLatch_sp (s : State) (p v : Byte) : (s.setLatch p v).sp = s.sp := rfl
@[simp] theorem State.setLatch_pc (s : State) (p v : Byte) : (s.setLatch p v).pc = s.pc := rfl
@[simp] theorem State.setLatch_flags (s : State) (p v : Byte) : (s.setLatch p v).flags = s.flags := rfl
@[simp] theorem State.setLatch_inte (s : State) (p v : Byte) : (s.setLatch p v).inte = s.inte := rfl
@[simp] theorem State.setLatch_latches (s : State) (p v : Byte) : (s.setLatch p v).latches = cellWrite s.latches p.toNat v := rfl
@[simp] theorem State.setLatch_mem (s : State) (p v : Byte) : (s.setLatch p v).mem = s.mem := rfl
@[simp] theorem State.setLatch_shreg (s : State) (p v : Byte) : (s.setLatch p v).shreg = s.shreg := rfl
@[simp] theorem State.setLatch_shamt (s : State) (p v : Byte) : (s.setLatch p v).shamt = s.shamt := rfl
@[simp] theorem State.setLatch_status (s : State) (p v : Byte) : (s.setLatch p v).status = s.status := rfl

/-! The flag updates. -/

@[simp] theorem Flags.setZSP_z (f : Flags) (v : Byte) : (f.setZSP v).z = decide (v = 0) := rfl
@[simp] theorem Flags.setZSP_s (f : Flags) (v : Byte) : (f.setZSP v).s = v.getLsbD 7 := rfl
@[simp] theorem Flags.setZSP_p (f : Flags) (v : Byte) : (f.setZSP v).p = parity v := by
  simp only [Flags.setZSP]
@[simp] theorem Flags.setZSP_cy (f : Flags) (v : Byte) : (f.setZSP v).cy = f.cy := rfl
@[simp] theorem Flags.setZSP_ac (f : Flags) (v : Byte) : (f.setZSP v).ac = f.ac := rfl
@[simp] theorem Flags.setCy_z (f : Flags) (v : Bool) : (f.setCy v).z = f.z := rfl
@[simp] theorem Flags.setCy_s (f : Flags) (v : Bool) : (f.setCy v).s = f.s := rfl
@[simp] theorem Flags.setCy_p (f : Flags) (v : Bool) : (f.setCy v).p = f.p := rfl
@[simp] theorem Flags.setCy_cy (f : Flags) (v : Bool) : (f.setCy v).cy = v := rfl
@[simp] theorem Flags.setCy_ac (f : Flags) (v : Bool) : (f.setCy v).ac = f.ac := rfl

/-! The general registers. -/

theorem Regs.get_set (r : Regs) (n m : RegName) (v : Byte) :
    (r.set n v).get m = if m = n then v else r.get m := by
  cases n <;> cases m <;> rfl

@[simp] theorem Regs.set_b_b (r : Regs) (v : Byte) : (r.set .b v).b = v := rfl
@[simp] theorem Regs.set_b_c (r : Regs) (v : Byte) : (r.set .b v).c = r.c := rfl
@[simp] theorem Regs.set_b_d (r : Regs) (v : Byte) : (r.set .b v).d = r.d := rfl
@[simp] theorem Regs.set_b_e (r : Regs) (v : Byte) : (r.set .b v).e = r.e := rfl
@[simp] theorem Regs.set_b_h (r : Regs) (v : Byte) : (r.set .b v).h = r.h := rfl
@[simp] theorem Regs.set_b_l (r : Regs) (v : Byte) : (r.set .b v).l = r.l := rfl
@[simp] theorem Regs.set_b_a (r : Regs) (v : Byte) : (r.set .b v).a = r.a := rfl
@[simp] theorem Regs.set_c_b (r : Regs) (v : Byte) : (r.set .c v).b = r.b := rfl
@[simp] theorem Regs.set_c_c (r : Regs) (v : Byte) : (r.set .c v).c = v := rfl
@[simp] theorem Regs.set_c_d (r : Regs) (v : Byte) : (r.set .c v).d = r.d := rfl
@[simp] theorem Regs.set_c_e (r : Regs) (v : Byte) : (r.set .c v).e = r.e := rfl
@[simp] theorem Regs.set_c_h (r : Regs) (v : Byte) : (r.set .c v).h = r.h := rfl
@[simp] theorem Regs.set_c_l (r : Regs) (v : Byte) : (r.set .c v).l = r.l := rfl
@[simp] theorem Regs.set_c_a (r : Regs) (v : Byte) : (r.set .c v).a = r.a := rfl
@[simp] theorem Regs.set_d_b (r : Regs) (v : Byte) : (r.set .d v).b = r.b := rfl
@[simp] theorem Regs.set_d_c (r : Regs) (v : Byte) : (r.set .d v).c = r.c := rfl
@[simp] theorem Regs.set_d_d (r : Regs) (v : Byte) : (r.set .d v).d = v := rfl
@[simp] theorem Regs.set_d_e (r : Regs) (v : Byte) : (r.set .d v).e = r.e := rfl
@[simp] theorem Regs.set_d_h (r : Regs) (v : Byte) : (r.set .d v).h = r.h := rfl
@[simp] theorem Regs.set_d_l (r : Regs) (v : Byte) : (r.set .d v).l = r.l := rfl
@[simp] theorem Regs.set_d_a (r : Regs) (v : Byte) : (r.set .d v).a = r.a := rfl
@[simp] theorem Regs.set_e_b (r : Regs) (v : Byte) : (r.set .e v).b = r.b := rfl
@[simp] theorem Regs.set_e_c (r : Regs) (v : Byte) : (r.set .e v).c = r.c := rfl
@[simp] theorem Regs.set_e_d (r : Regs) (v : Byte) : (r.set .e v).d = r.d := rfl
@[simp] theorem Regs.set_e_e (r : Regs) (v : Byte) : (r.set .e v).e = v := rfl
@[simp] theorem Regs.set_e_h (r : Regs) (v : Byte) : (r.set .e v).h = r.h := rfl
@[simp] theorem Regs.set_e_l (r : Regs) (v : Byte) : (r.set .e v).l = r.l := rfl
@[simp] theorem Regs.set_e_a (r : Regs) (v : Byte) : (r.set .e v).a = r.a := rfl
@[simp] theorem Regs.set_h_b (r : Regs) (v : Byte) : (r.set .h v).b = r.b := rfl
@[simp] theorem Regs.set_h_c (r : Regs) (v : Byte) : (r.set .h v).c = r.c := rfl
@[simp] theorem Regs.set_h_d (r : Regs) (v : Byte) : (r.set .h v).d = r.d := rfl
@[simp] theorem Regs.set_h_e (r : Regs) (v : Byte) : (r.set .h v).e = r.e := rfl
@[simp] theorem Regs.set_h_h (r : Regs) (v : Byte) : (r.set .h v).h = v := rfl
@[simp] theorem Regs.set_h_l (r : Regs) (v : Byte) : (r.set .h v).l = r.l := rfl
@[simp] theorem Regs.set_h_a (r : Regs) (v : Byte) : (r.set .h v).a = r.a := rfl
@[simp] theorem Regs.set_l_b (r : Regs) (v : Byte) : (r.set .l v).b = r.b := rfl
@[simp] theorem Regs.set_l_c (r : Regs) (v : Byte) : (r.set .l v).c = r.c := rfl
@[simp] theorem Regs.set_l_d (r : Regs) (v : Byte) : (r.set .l v).d = r.d := rfl
@[simp] theorem Regs.set_l_e (r : Regs) (v : Byte) : (r.set .l v).e = r.e := rfl
@[simp] theorem Regs.set_l_h (r : Regs) (v : Byte) : (r.set .l v).h = r.h := rfl
@[simp] theorem Regs.set_l_l (r : Regs) (v : Byte) : (r.set .l v).l = v := rfl
@[simp] theorem Regs.set_l_a (r : Regs) (v : Byte) : (r.set .l v).a = r.a := rfl
@[simp] theorem Regs.set_a_b (r : Regs) (v : Byte) : (r.set .a v).b = r.b := rfl
@[simp] theorem Regs.set_a_c (r : Regs) (v : Byte) : (r.set .a v).c = r.c := rfl
@[simp] theorem Regs.set_a_d (r : Regs) (v : Byte) : (r.set .a v).d = r.d := rfl
@[simp] theorem Regs.set_a_e (r : Regs) (v : Byte) : (r.set .a v).e = r.e := rfl
@[simp] theorem Regs.set_a_h (r : Regs) (v : Byte) : (r.set .a v).h = r.h := rfl
@[simp] theorem Regs.set_a_l (r : Regs) (v : Byte) : (r.set .a v).l = r.l := rfl
@[simp] theorem Regs.set_a_a (r : Regs) (v : Byte) : (r.set .a v).a = v := rfl

/-- Registers with the same seven values are the same. -/
theorem Regs.ext_get {r q : Regs} (h : ∀ n, r.get n = q.get n) : r = q := by
  have hb := h .b
  have hc := h .c
  have hd := h .d
  have he := h .e
  have hh := h .h
  have hl := h .l
  have ha := h .a
  cases r
  cases q
  simp_all [Regs.get]

end Sys2Proof.Machine
end

