-- ==== Sys2Proof/Laws/Ops.lean ====
section
/-! SUPPORT. What each shared operation does, said once: bytes, checked memory, the stack, operands, branches. At an address that
is a 16-bit word the checks of R323 never fire. -/

namespace Sys2Proof.Machine

/-! Bytes and words. -/

@[simp] theorem hi8_join (h l : Byte) : hi8 (joinBytes h l) = h := by
  apply BitVec.eq_of_getLsbD_eq
  intro i hi
  simp only [hi8, joinBytes, BitVec.getLsbD_extractLsb', BitVec.getLsbD_append, hi, decide_true, Bool.true_and]
  rw [if_neg (by omega)]
  congr 1
  omega

@[simp] theorem lo8_join (h l : Byte) : lo8 (joinBytes h l) = l := by
  apply BitVec.eq_of_getLsbD_eq
  intro i hi
  simp only [lo8, joinBytes, BitVec.getLsbD_extractLsb', BitVec.getLsbD_append, hi, decide_true, Bool.true_and]
  rw [if_pos (by omega)]
  congr 1
  omega

@[simp] theorem join_hi8_lo8 (v : Word) : joinBytes (hi8 v) (lo8 v) = v := by
  apply BitVec.eq_of_getLsbD_eq
  intro i hi
  simp only [hi8, lo8, joinBytes, BitVec.getLsbD_extractLsb', BitVec.getLsbD_append]
  split
  · rename_i h
    simp [h]
  · rename_i h
    have : i - 8 < 8 := by omega
    have h8 : 8 + (i - 8) = i := by omega
    simp [this, h8]

theorem word_succ_ne (a : Word) : a + 1 ≠ a := by
  intro h
  have h1 : (1 : Word) = 0 := by
    apply add_left_cancel (a := a)
    rw [h, add_zero]
  exact absurd h1 (by decide)

theorem word_toNat_lt (a : Word) : a.toNat < Config.memSize := a.isLt

theorem word_succ_toNat (a : Word) : (a.toNat + 1) % 65536 = (a + 1).toNat := by
  simp [BitVec.toNat_add]

/-! Memory and latches. -/

theorem State.byteAt_storeByte (s : State) (a b : Word) (v : Byte) :
    (s.storeByte a v).byteAt b = if b = a then v else s.byteAt b := by
  simp only [State.byteAt, State.storeByte_mem, cellRead_write, BitVec.toNat_inj]

theorem State.byteAt_storeWord (s : State) (a b v : Word) :
    (s.storeWord a v).byteAt b = if b = a + 1 then hi8 v else if b = a then lo8 v else s.byteAt b := by
  simp only [State.storeWord, State.byteAt_storeByte]

theorem State.byteAt_of_mem {s t : State} (h : t.mem = s.mem) (a : Word) : t.byteAt a = s.byteAt a := by
  simp only [State.byteAt, h]

theorem State.wordAt_storeWord (s : State) (a v : Word) : (s.storeWord a v).wordAt a = v := by
  simp [State.wordAt, State.byteAt_storeWord]

theorem State.latch_setLatch (s : State) (p q v : Byte) :
    (s.setLatch p v).latch q = if q = p then v else s.latch q := by
  simp only [State.latch, State.setLatch_latches, cellRead_write, BitVec.toNat_inj]

theorem State.mem_wf_storeByte {s : State} (a : Word) (v : Byte) (h : Memory.wf s.mem) :
    Memory.wf (s.storeByte a v).mem := cellsOk_write _ _ (word_toNat_lt a) h

theorem State.mem_wf_storeWord {s : State} (a v : Word) (h : Memory.wf s.mem) :
    Memory.wf (s.storeWord a v).mem := State.mem_wf_storeByte _ _ (State.mem_wf_storeByte _ _ h)

theorem State.latches_wf_setLatch {s : State} (p v : Byte) (h : Latches.wf s.latches) :
    Latches.wf (s.setLatch p v).latches := cellsOk_write _ _ p.isLt h

/-- Memories in canonical form that hold the same byte at every address are equal. -/
theorem State.mem_ext {s t : State} (hs : Memory.wf s.mem) (ht : Memory.wf t.mem)
    (h : ∀ a : Word, s.byteAt a = t.byteAt a) : s.mem = t.mem := by
  refine cells_ext hs ht fun a ha => ?_
  have := h (BitVec.ofNat 16 a)
  rwa [State.byteAt, State.byteAt, BitVec.toNat_ofNat, Nat.mod_eq_of_lt (show a < 2 ^ 16 from ha)] at this

theorem reset_mem_wf : Memory.wf State.reset.mem := cellsOk_nil _

theorem reset_latches_wf : Latches.wf State.reset.latches := cellsOk_nil _

/-! Updates that leave memory leave every byte of it. -/

@[simp] theorem State.setRegs_byteAt (s : State) (v : Regs) (x : Word) : (s.setRegs v).byteAt x = s.byteAt x := rfl
@[simp] theorem State.setReg_byteAt (s : State) (n : RegName) (v : Byte) (x : Word) : (s.setReg n v).byteAt x = s.byteAt x := rfl
@[simp] theorem State.setSp_byteAt (s : State) (v : Word) (x : Word) : (s.setSp v).byteAt x = s.byteAt x := rfl
@[simp] theorem State.setPc_byteAt (s : State) (v : Word) (x : Word) : (s.setPc v).byteAt x = s.byteAt x := rfl
@[simp] theorem State.setFlags_byteAt (s : State) (v : Flags) (x : Word) : (s.setFlags v).byteAt x = s.byteAt x := rfl
@[simp] theorem State.setInte_byteAt (s : State) (v : Bool) (x : Word) : (s.setInte v).byteAt x = s.byteAt x := rfl
@[simp] theorem State.setLatches_byteAt (s : State) (v : Latches) (x : Word) : (s.setLatches v).byteAt x = s.byteAt x := rfl
@[simp] theorem State.setShreg_byteAt (s : State) (v : Word) (x : Word) : (s.setShreg v).byteAt x = s.byteAt x := rfl
@[simp] theorem State.setShamt_byteAt (s : State) (v : BitVec 3) (x : Word) : (s.setShamt v).byteAt x = s.byteAt x := rfl
@[simp] theorem State.setStatus_byteAt (s : State) (v : Status) (x : Word) : (s.setStatus v).byteAt x = s.byteAt x := rfl
@[simp] theorem State.setBc_byteAt (s : State) (v : Word) (x : Word) : (s.setBc v).byteAt x = s.byteAt x := rfl
@[simp] theorem State.setDe_byteAt (s : State) (v : Word) (x : Word) : (s.setDe v).byteAt x = s.byteAt x := rfl
@[simp] theorem State.setHl_byteAt (s : State) (v : Word) (x : Word) : (s.setHl v).byteAt x = s.byteAt x := rfl
@[simp] theorem State.accumulate_byteAt (s : State) (r : Byte × Flags) (x : Word) : (s.accumulate r).byteAt x = s.byteAt x := rfl
@[simp] theorem State.setLatch_byteAt (s : State) (p v : Byte) (x : Word) : (s.setLatch p v).byteAt x = s.byteAt x := rfl
@[simp] theorem State.setRegs_wordAt (s : State) (v : Regs) (x : Word) : (s.setRegs v).wordAt x = s.wordAt x := rfl
@[simp] theorem State.setReg_wordAt (s : State) (n : RegName) (v : Byte) (x : Word) : (s.setReg n v).wordAt x = s.wordAt x := rfl
@[simp] theorem State.setSp_wordAt (s : State) (v : Word) (x : Word) : (s.setSp v).wordAt x = s.wordAt x := rfl
@[simp] theorem State.setPc_wordAt (s : State) (v : Word) (x : Word) : (s.setPc v).wordAt x = s.wordAt x := rfl
@[simp] theorem State.setFlags_wordAt (s : State) (v : Flags) (x : Word) : (s.setFlags v).wordAt x = s.wordAt x := rfl
@[simp] theorem State.setInte_wordAt (s : State) (v : Bool) (x : Word) : (s.setInte v).wordAt x = s.wordAt x := rfl
@[simp] theorem State.setLatches_wordAt (s : State) (v : Latches) (x : Word) : (s.setLatches v).wordAt x = s.wordAt x := rfl
@[simp] theorem State.setShreg_wordAt (s : State) (v : Word) (x : Word) : (s.setShreg v).wordAt x = s.wordAt x := rfl
@[simp] theorem State.setShamt_wordAt (s : State) (v : BitVec 3) (x : Word) : (s.setShamt v).wordAt x = s.wordAt x := rfl
@[simp] theorem State.setStatus_wordAt (s : State) (v : Status) (x : Word) : (s.setStatus v).wordAt x = s.wordAt x := rfl
@[simp] theorem State.setBc_wordAt (s : State) (v : Word) (x : Word) : (s.setBc v).wordAt x = s.wordAt x := rfl
@[simp] theorem State.setDe_wordAt (s : State) (v : Word) (x : Word) : (s.setDe v).wordAt x = s.wordAt x := rfl
@[simp] theorem State.setHl_wordAt (s : State) (v : Word) (x : Word) : (s.setHl v).wordAt x = s.wordAt x := rfl
@[simp] theorem State.accumulate_wordAt (s : State) (r : Byte × Flags) (x : Word) : (s.accumulate r).wordAt x = s.wordAt x := rfl
@[simp] theorem State.setLatch_wordAt (s : State) (p v : Byte) (x : Word) : (s.setLatch p v).wordAt x = s.wordAt x := rfl

/-! Checked computations. -/

@[simp] theorem checked_ok_bind {α β : Type} (v : α) (f : α → Checked β) :
    ((Except.ok v : Checked α) >>= f) = f v := rfl

@[simp] theorem checked_error_bind {α β : Type} (e : FatalError) (f : α → Checked β) :
    ((Except.error e : Checked α) >>= f) = .error e := rfl

@[simp] theorem checked_pure {α : Type} (v : α) : (pure v : Checked α) = .ok v := rfl

@[simp] theorem conclude_ok (s t : State) : conclude s (.ok t) = .next t := rfl

@[simp] theorem conclude_error (s : State) (e : FatalError) : conclude s (.error e) = raiseFatal s e := rfl

@[simp] theorem memRead8_word (s : State) (a : Word) : memRead8 s a.toNat = .ok (s.byteAt a) := by
  simp [memRead8, word_toNat_lt]

@[simp] theorem memWrite8_word (s : State) (a : Word) (v : Byte) :
    memWrite8 s a.toNat v = .ok (s.storeByte a v) := by
  simp [memWrite8, word_toNat_lt]

@[simp] theorem memRead16_word (s : State) (a : Word) : memRead16 s a.toNat = .ok (s.wordAt a) := by
  simp [memRead16, word_succ_toNat, State.wordAt, -BitVec.toNat_add]

@[simp] theorem memWrite16_word (s : State) (a v : Word) :
    memWrite16 s a.toNat v = .ok (s.storeWord a v) := by
  simp [memWrite16, word_succ_toNat, State.storeWord, -BitVec.toNat_add]

/-- A checked write keeps the canonical form. -/
theorem memWrite8_mem_wf {s t : State} {addr : Nat} {v : Byte} (h : Memory.wf s.mem)
    (hw : memWrite8 s addr v = .ok t) : Memory.wf t.mem := by
  unfold memWrite8 at hw
  split at hw
  · cases hw
    exact State.mem_wf_storeByte _ _ h
  · cases hw

/-- A checked two-byte write keeps the canonical form. -/
theorem memWrite16_mem_wf {s t : State} {addr : Nat} {v : Word} (h : Memory.wf s.mem)
    (hw : memWrite16 s addr v = .ok t) : Memory.wf t.mem := by
  unfold memWrite16 at hw
  cases hl : memWrite8 s addr (lo8 v) with
  | error e =>
    rw [hl] at hw
    cases hw
  | ok u =>
    rw [hl] at hw
    exact memWrite8_mem_wf (memWrite8_mem_wf h hl) hw

/-- Placing bytes keeps the canonical form. -/
theorem placeBytes_mem_wf {bytes : List Byte} {s : State} {a : Word} (h : Memory.wf s.mem) :
    Memory.wf (placeBytes s a bytes).mem := by
  induction bytes generalizing s a with
  | nil => exact h
  | cons v rest ih => exact ih (State.mem_wf_storeByte a v h)

/-- Placing bytes changes the memory alone. -/
theorem placeBytes_eq (bytes : List Byte) (s : State) (a : Word) :
    placeBytes s a bytes = { s with mem := (placeBytes s a bytes).mem } := by
  induction bytes generalizing s a with
  | nil => rfl
  | cons v rest ih => exact ih (s.storeByte a v) (a + 1)

/-! The stack. -/

@[simp] theorem push16_eq (s : State) (v : Word) :
    push16 s v = .ok ((s.setSp (s.sp - 2)).storeWord (s.sp - 2) v) := by
  simp only [push16, memWrite16_word, State.setSp_sp]

@[simp] theorem pop16_eq (s : State) : pop16 s = .ok (s.wordAt s.sp, s.setSp (s.sp + 2)) := by
  simp [pop16]

@[simp] theorem callTo_eq (s : State) (target : Word) :
    callTo s target = .ok (((s.setSp (s.sp - 2)).storeWord (s.sp - 2) s.pc).setPc target) := by
  simp [callTo]

@[simp] theorem takeRestart_eq (s : State) (n : BitVec 3) :
    takeRestart s n = .ok (((s.setSp (s.sp - 2)).storeWord (s.sp - 2) s.pc).setPc (restartVector n)) := by
  simp [takeRestart]

@[simp] theorem returnFromStack_eq (s : State) :
    returnFromStack s = .ok ((s.setSp (s.sp + 2)).setPc (s.wordAt s.sp)) := by
  simp [returnFromStack]

/-! Operands. -/

/-- The value a register index reads, for an index in range (R143). -/
def State.operand8 (s : State) (r : Nat) : Byte := if r = 6 then s.byteAt s.hl else s.regs.get (regName r)

/-- The state after a write through a register index in range (R143). -/
def State.withOperand8 (s : State) (r : Nat) (v : Byte) : State :=
  if r = 6 then s.storeByte s.hl v else s.setReg (regName r) v

theorem getR_ok (s : State) {r : Nat} (h : r < 8) : getR s r = .ok (s.operand8 r) := by
  unfold getR State.operand8
  split
  · simp
  · rfl

theorem setR_ok (s : State) {r : Nat} (v : Byte) (h : r < 8) : setR s r v = .ok (s.withOperand8 r v) := by
  unfold setR State.withOperand8
  split
  · simp
  · rfl

theorem getR_reg (s : State) {r : Nat} (h : r < 8) (h6 : r ≠ 6) : getR s r = .ok (s.regs.get (regName r)) := by
  simp [getR, h, h6]

theorem setR_reg (s : State) {r : Nat} (v : Byte) (h : r < 8) (h6 : r ≠ 6) :
    setR s r v = .ok (s.setReg (regName r) v) := by
  simp [setR, h, h6]

theorem getR_out (s : State) {r : Nat} (h : 8 ≤ r) : getR s r = .error (.indexOutOfRange .register r) := by
  have h6 : r ≠ 6 := by omega
  have h8 : ¬ r < 8 := by omega
  simp [getR, h6, h8]

theorem setR_out (s : State) {r : Nat} (v : Byte) (h : 8 ≤ r) :
    setR s r v = .error (.indexOutOfRange .register r) := by
  have h6 : r ≠ 6 := by omega
  have h8 : ¬ r < 8 := by omega
  simp [setR, h6, h8]

theorem isRegisterIndex_iff (r : Nat) : isRegisterIndex r = true ↔ r < 8 ∧ r ≠ 6 := by
  simp [isRegisterIndex]

/-- A pair index is 0, 1, 2, 3, or out of range. -/
theorem getRP_cases (s : State) (p : Nat) :
    (p = 0 ∧ getRP s p = .ok s.bc) ∨ (p = 1 ∧ getRP s p = .ok s.de) ∨ (p = 2 ∧ getRP s p = .ok s.hl) ∨
      (p = 3 ∧ getRP s p = .ok s.sp) ∨ (4 ≤ p ∧ getRP s p = .error (.indexOutOfRange .pair p)) := by
  match p with
  | 0 => simp [getRP]
  | 1 => simp [getRP]
  | 2 => simp [getRP]
  | 3 => simp [getRP]
  | n + 4 => simp [getRP]

/-- A pair write goes to BC, DE, HL, SP, or is out of range. -/
theorem setRP_cases (s : State) (p : Nat) (v : Word) :
    (p = 0 ∧ setRP s p v = .ok (s.setBc v)) ∨ (p = 1 ∧ setRP s p v = .ok (s.setDe v)) ∨
      (p = 2 ∧ setRP s p v = .ok (s.setHl v)) ∨ (p = 3 ∧ setRP s p v = .ok (s.setSp v)) ∨
      (4 ≤ p ∧ setRP s p v = .error (.indexOutOfRange .pair p)) := by
  match p with
  | 0 => simp [setRP]
  | 1 => simp [setRP]
  | 2 => simp [setRP]
  | 3 => simp [setRP]
  | n + 4 => simp [setRP]

theorem condHolds_ok (f : Flags) {c : Nat} (h : c < 8) : ∃ v, condHolds f c = .ok v := by
  interval_cases c <;> exact ⟨_, rfl⟩

theorem condHolds_out (f : Flags) {c : Nat} (h : 8 ≤ c) :
    condHolds f c = .error (.indexOutOfRange .condition c) := by
  obtain ⟨k, rfl⟩ := Nat.exists_eq_add_of_le' h
  rfl

/-! Branches, ALU forms and the peripheral. -/

/-- A branch not always taken follows its condition. -/
theorem branch_cond (kind : BranchKind) (s : State) {c : Nat} {v : Bool} (h : condHolds s.flags c = .ok v) :
    branch kind c false s = if v then takeBranch kind s else .ok s := by
  simp [branch, h]

theorem aluReg_ok (after : State → Byte → State) (s : State) {r : Nat} (h : r < 8) :
    aluReg after r s = .next (after s (s.operand8 r)) := by
  simp [aluReg, getR_ok s h]

@[simp] theorem aluMem_eq (after : State → Byte → State) (s : State) :
    aluMem after s = .next (after s (s.byteAt s.hl)) := by
  simp [aluMem]

/-! Fetching. -/

@[simp] theorem fetch8_eq (s : State) : fetch8 s = .ok (s.byteAt s.pc, s.setPc (s.pc + 1)) := by
  simp [fetch8]

end Sys2Proof.Machine
end

