-- ==== Sys2Proof/Laws/Fetch.lean ====
section
/-! SUPPORT. Fetching reads what the decoder reads at `pc`, and moves `pc` past it; what a step can do. -/

namespace Sys2Proof.Machine

theorem word_add_two (a : Word) : a + 1 + 1 = a + 2 := by
  rw [add_assoc]
  rfl

theorem word_add_three (a : Word) : a + 1 + 2 = a + 3 := by
  rw [add_assoc]
  rfl

theorem operandCount_cases (f : Form) : f.operandCount = 0 ∨ f.operandCount = 1 ∨ f.operandCount = 2 := by
  cases f <;> simp [Form.operandCount]

/-- An opcode's instruction is as long as the opcode says, whatever its operand bytes (R100). -/
theorem assemble_length (op b2 b3 : Byte) : (assemble op b2 b3).length = (classify op).operandCount + 1 := by
  unfold assemble
  cases classify op
  case mov =>
    simp only [assembleMov]
    split
    · rfl
    · split <;> rfl
  case alu =>
    simp only [assembleAlu]
    split <;> split <;> rfl
  case aluImm =>
    simp only [assembleAluImm]
    split <;> rfl
  case rot =>
    simp only [assembleRotate]
    split <;> rfl
  case direct =>
    simp only [assembleDirect]
    split <;> rfl
  case push | pop | mvi | inr | dcr =>
    simp only
    split <;> rfl
  all_goals rfl

/-- The fetch gives the instruction that the bytes at `pc` decode to, and the state with `pc` past its bytes (R140, R141). -/
theorem fetchInstr_eq_decode (s : State) {i : Instr} {rest : List Byte}
    (h : decode [s.byteAt s.pc, s.byteAt (s.pc + 1), s.byteAt (s.pc + 2)] = .ok (i, rest)) :
    fetchInstr s = .ok (i, s.setPc (s.pc + BitVec.ofNat 16 i.length)) := by
  rcases operandCount_cases (classify (s.byteAt s.pc)) with hc | hc | hc
  · simp only [decode, hc, Except.ok.injEq, Prod.mk.injEq] at h
    obtain ⟨rfl, -⟩ := h
    simp only [fetchInstr, fetch8_eq, checked_ok_bind, hc, checked_pure, assemble_length]
    rfl
  · simp only [decode, hc, Except.ok.injEq, Prod.mk.injEq] at h
    obtain ⟨rfl, -⟩ := h
    simp only [fetchInstr, fetch8_eq, checked_ok_bind, hc, checked_pure, assemble_length, State.setPc_pc,
      State.setPc_byteAt, word_add_two]
    rfl
  · simp only [decode, hc, Except.ok.injEq, Prod.mk.injEq] at h
    obtain ⟨rfl, -⟩ := h
    simp only [fetchInstr, fetch8_eq, checked_ok_bind, hc, checked_pure, assemble_length, State.setPc_pc,
      State.setPc_byteAt, word_add_two, word_add_three]
    rfl

/-- Three bytes always hold a whole instruction (R100). -/
theorem decode_three (b1 b2 b3 : Byte) : ∃ i rest, decode [b1, b2, b3] = .ok (i, rest) := by
  rcases operandCount_cases (classify b1) with hc | hc | hc <;> simp only [decode, hc] <;> exact ⟨_, _, rfl⟩

/-- What a step that gives a next state did: the core was running, and the instruction decoded at `pc` was executed. -/
theorem step_next_cases {s t : State} (h : step s = .next t) :
    s.status = .running ∧ ∃ i rest,
      decode [s.byteAt s.pc, s.byteAt (s.pc + 1), s.byteAt (s.pc + 2)] = .ok (i, rest) ∧
      exec i (s.setPc (s.pc + BitVec.ofNat 16 i.length)) = .next t := by
  unfold step at h
  split at h
  · rename_i hs
    obtain ⟨i, rest, hd⟩ := decode_three (s.byteAt s.pc) (s.byteAt (s.pc + 1)) (s.byteAt (s.pc + 2))
    rw [fetchInstr_eq_decode s hd] at h
    exact ⟨hs, i, rest, hd, h⟩
  · cases h

end Sys2Proof.Machine
end

