-- ==== Sys2Proof/Tests/Slice0.lean ====
section
/-! SUPPORT. Tests of the model on the words and vectors the spec gives, and the witnesses: for each statement with hypotheses,
a state and operands that meet them. Expected values come from spec/95_test_vectors.md and the examples of the rules, never from
the model. -/

namespace Sys2Proof.Tests

open Sys2Proof Sys2Proof.Machine

/-- The state a vector starts from: `pc` at 0x0100 and the instruction's bytes placed there. -/
def start (s : State) (bytes : List Byte) : State := placeBytes (s.setPc 0x0100) 0x0100 bytes

/-- What is seen of an outcome's next state. -/
def view {α : Type} (outcome : Result) (see : State → α) : Option α :=
  match outcome with
  | .next t => some (see t)
  | .fault _ => none
  | .refused _ => none

/-- What is seen of the state after one step. -/
def nextView {α : Type} (s : State) (see : State → α) : Option α := view (step s) see

/-- The flags in the order Z S P CY AC of the vectors. -/
def flagBits (z s p cy ac : Nat) : Flags :=
  { z := z == 1, s := s == 1, p := p == 1, cy := cy == 1, ac := ac == 1 }

/-! Well-formedness: an ill-formed term for each check, which the check refuses. -/

theorem test_wellFormed_register_fields :
    (Instr.movDS 6 0).wellFormed = false ∧ (Instr.movDS 0 6).wellFormed = false ∧ (Instr.movDS 8 0).wellFormed = false ∧
      (Instr.movDM 6).wellFormed = false ∧ (Instr.movMS 6).wellFormed = false ∧ (Instr.mviD 6 0).wellFormed = false ∧
      (Instr.inrD 6).wellFormed = false ∧ (Instr.dcrD 8).wellFormed = false := by decide

theorem test_wellFormed_alu_fields :
    (Instr.addS 6).wellFormed = false ∧ (Instr.adcS 8).wellFormed = false ∧ (Instr.subS 6).wellFormed = false ∧
      (Instr.sbbS 8).wellFormed = false ∧ (Instr.anaS 6).wellFormed = false ∧ (Instr.xraS 8).wellFormed = false ∧
      (Instr.oraS 6).wellFormed = false ∧ (Instr.cmpS 8).wellFormed = false := by decide

theorem test_wellFormed_pair_fields :
    (Instr.lxi 4 0).wellFormed = false ∧ (Instr.inx 4).wellFormed = false ∧ (Instr.dcx 4).wellFormed = false ∧
      (Instr.dad 4).wellFormed = false ∧ (Instr.pushRp 3).wellFormed = false ∧ (Instr.popRp 3).wellFormed = false ∧
      (Instr.ldax 2).wellFormed = false ∧ (Instr.stax 2).wellFormed = false := by decide

theorem test_wellFormed_condition_and_opcode_fields :
    (Instr.jccc 8 0).wellFormed = false ∧ (Instr.cccc 8 0).wellFormed = false ∧ (Instr.rccc 8).wellFormed = false ∧
      (Instr.unknown 0x00).wellFormed = false ∧ (Instr.unknown 0xCD).wellFormed = false := by decide

/-! Decoding: for every constructor a word written out from its encoding in spec/30_encoding.md. -/

theorem test_decode_machine_control :
    decode [0b00000000] = .ok (.nop, []) ∧ decode [0b01110110] = .ok (.hlt, []) ∧
    decode [0b11111011] = .ok (.ei, []) ∧ decode [0b11110011] = .ok (.di, []) ∧
    decode [0b11011011, 0x1F] = .ok (.inPort 0x1F, []) ∧ decode [0b11010011, 0x04] = .ok (.outPort 4, []) := by decide

theorem test_decode_exact_register :
    decode [0b11101011] = .ok (.xchg, []) ∧ decode [0b11100011] = .ok (.xthl, []) ∧
    decode [0b11111001] = .ok (.sphl, []) ∧ decode [0b11101001] = .ok (.pchl, []) ∧
    decode [0b00110111] = .ok (.stc, []) ∧ decode [0b00111111] = .ok (.cmc, []) ∧
    decode [0b00101111] = .ok (.cma, []) := by decide

theorem test_decode_move :
    decode [0b01010111] = .ok (.movDS 2 7, []) ∧ decode [0b01100110] = .ok (.movDM 4, []) ∧
    decode [0b01110000] = .ok (.movMS 0, []) ∧ decode [0b00111110, 0x0F] = .ok (.mviD 7 0x0F, []) ∧
    decode [0b00110110, 0xEE] = .ok (.mviM 0xEE, []) ∧ decode [0b00110001, 0x00, 0x24] = .ok (.lxi 3 0x2400, []) := by decide

theorem test_decode_alu_register :
    decode [0b10000000] = .ok (.addS 0, []) ∧ decode [0b10001001] = .ok (.adcS 1, []) ∧
    decode [0b10010010] = .ok (.subS 2, []) ∧ decode [0b10011101] = .ok (.sbbS 5, []) ∧
    decode [0b10100100] = .ok (.anaS 4, []) ∧ decode [0b10101111] = .ok (.xraS 7, []) ∧
    decode [0b10110011] = .ok (.oraS 3, []) ∧ decode [0b10111011] = .ok (.cmpS 3, []) := by decide

theorem test_decode_alu_memory :
    decode [0b10000110] = .ok (.addM, []) ∧ decode [0b10001110] = .ok (.adcM, []) ∧
    decode [0b10010110] = .ok (.subM, []) ∧ decode [0b10011110] = .ok (.sbbM, []) ∧
    decode [0b10100110] = .ok (.anaM, []) ∧ decode [0b10101110] = .ok (.xraM, []) ∧
    decode [0b10110110] = .ok (.oraM, []) ∧ decode [0b10111110] = .ok (.cmpM, []) := by decide

theorem test_decode_alu_immediate :
    decode [0b11000110, 0x01] = .ok (.adi 1, []) ∧ decode [0b11001110, 0x7F] = .ok (.aci 0x7F, []) ∧
    decode [0b11010110, 0x20] = .ok (.sui 0x20, []) ∧ decode [0b11011110, 0x05] = .ok (.sbi 5, []) ∧
    decode [0b11100110, 0x0F] = .ok (.ani 0x0F, []) ∧ decode [0b11101110, 0x01] = .ok (.xri 1, []) ∧
    decode [0b11110110, 0x80] = .ok (.ori 0x80, []) ∧ decode [0b11111110, 0x4A] = .ok (.cpi 0x4A, []) := by decide

theorem test_decode_branch :
    decode [0b11000011, 0x34, 0x12] = .ok (.jmp 0x1234, []) ∧
    decode [0b11111010, 0x34, 0x12] = .ok (.jccc 7 0x1234, []) ∧
    decode [0b11001101, 0x00, 0x02] = .ok (.call 0x0200, []) ∧
    decode [0b11011100, 0x00, 0x02] = .ok (.cccc 3 0x0200, []) ∧ decode [0b11001001] = .ok (.ret, []) ∧
    decode [0b11101000] = .ok (.rccc 5, []) ∧ decode [0b11010111] = .ok (.rst 2, []) := by decide

theorem test_decode_stack :
    decode [0b11010101] = .ok (.pushRp 1, []) ∧ decode [0b11110101] = .ok (.pushPsw, []) ∧
    decode [0b11100001] = .ok (.popRp 2, []) ∧ decode [0b11110001] = .ok (.popPsw, []) := by decide

theorem test_decode_rotate :
    decode [0b00000111] = .ok (.rlc, []) ∧ decode [0b00001111] = .ok (.rrc, []) ∧
    decode [0b00010111] = .ok (.ral, []) ∧ decode [0b00011111] = .ok (.rar, []) := by decide

theorem test_decode_indirect_and_direct :
    decode [0b00011010] = .ok (.ldax 1, []) ∧ decode [0b00000010] = .ok (.stax 0, []) ∧
    decode [0b00100010, 0x00, 0x20] = .ok (.shld 0x2000, []) ∧
    decode [0b00101010, 0x00, 0x20] = .ok (.lhld 0x2000, []) ∧
    decode [0b00110010, 0x06, 0x00] = .ok (.sta 0x0006, []) ∧
    decode [0b00111010, 0x01, 0x20] = .ok (.lda 0x2001, []) := by decide

theorem test_decode_increment :
    decode [0b00110011] = .ok (.inx 3, []) ∧ decode [0b00011011] = .ok (.dcx 1, []) ∧
    decode [0b00001100] = .ok (.inrD 1, []) ∧ decode [0b00110100] = .ok (.inrM, []) ∧
    decode [0b00101101] = .ok (.dcrD 5, []) ∧ decode [0b00110101] = .ok (.dcrM, []) ∧
    decode [0b00101001] = .ok (.dad 2, []) := by decide

theorem test_decode_unknown :
    decode [0b00100111] = .ok (.unknown 0x27, []) ∧ decode [0b11001011] = .ok (.unknown 0xCB, []) ∧
    decode [0b11111101] = .ok (.unknown 0xFD, []) := by decide

/-- What follows an instruction is left, and a list that ends too early is rejected by name. -/
theorem test_decode_rest_and_truncated :
    decode [0xC3, 0x34, 0x12, 0x76] = .ok (.jmp 0x1234, [0x76]) ∧ decode [0xC3, 0x34] = .error (.truncated 0xC3) ∧
      decode [0x06] = .error (.truncated 0x06) ∧ decode [] = .error .noBytes := by decide

/-- The numbering of the opcode table: the opcode is bits 7..0, and the operand bytes the table counts follow. -/
theorem test_decodeTableWord :
    decodeTableWord 8 0x41 = some (.movDS 0 1) ∧ decodeTableWord 8 0xC3 = some (.jmp 0) ∧
      decodeTableWord 24 0x1234C3 = some (.jmp 0x1234) ∧ decodeTableWord 16 0x2A06 = some (.mviD 0 0x2A) := by decide

/-- The next step after reset runs the word placed for it. -/
theorem test_withFetchWord :
    nextView (State.reset.withFetchWord 16 0x2A06) (fun t => (t.regs.b, t.pc)) = some (0x2A, 2) := by decide

/-! ALU (spec/95_test_vectors.md E4, E5, V-ALU, V-ALU-R; the examples of 41_alu.md). -/

/-- V-ALU-R ADD B, R170. -/
theorem test_addS :
    nextView (start (State.reset |>.setReg .a 0x12 |>.setReg .b 0x34 |>.setFlags (flagBits 1 1 1 1 1)) [0x80])
      (fun t => (t.regs.a, t.flags, t.pc))
      = some (0x46, flagBits 0 0 0 0 1, 0x0101) := by decide

/-- V-ALU-R ADD A. -/
theorem test_addS_a :
    nextView (start (State.reset |>.setReg .a 0x81) [0x87]) (fun t => (t.regs.a, t.flags, t.pc))
      = some (0x02, flagBits 0 0 0 1 0, 0x0101) := by decide

/-- V-ALU-R ADD M. -/
theorem test_addM :
    nextView (start (State.reset |>.setReg .a 0x12 |>.setReg .h 0x20 |>.storeByte 0x2000 0xF0) [0x86])
      (fun t => (t.regs.a, t.flags, t.pc))
      = some (0x02, flagBits 0 0 0 1 0, 0x0101) := by decide

/-- E4, R172. -/
theorem test_adi :
    nextView (start (State.reset |>.setReg .a 0xFF) [0xC6, 0x01]) (fun t => (t.regs.a, t.flags, t.pc))
      = some (0x00, flagBits 1 0 1 1 0, 0x0102) := by decide

/-- V-ALU ADI 0x0F + 0x01 with CY = 1. -/
theorem test_adi_ignores_carry :
    nextView (start (State.reset |>.setReg .a 0x0F |>.setFlags (flagBits 0 0 0 1 0)) [0xC6, 0x01])
      (fun t => (t.regs.a, t.flags, t.pc))
      = some (0x10, flagBits 0 0 0 0 0, 0x0102) := by decide

/-- R173. -/
theorem test_adcS :
    nextView (start (State.reset |>.setReg .a 0x3D |>.setReg .c 0x42 |>.setFlags (flagBits 0 0 0 1 0)) [0x89])
      (fun t => (t.regs.a, t.flags, t.pc))
      = some (0x80, flagBits 0 1 0 0 0, 0x0101) := by decide

/-- R174. -/
theorem test_adcM :
    nextView (start (State.reset |>.setReg .a 0xFF |>.setReg .h 0x20 |>.setFlags (flagBits 0 0 0 1 0)) [0x8E])
      (fun t => (t.regs.a, t.flags, t.pc))
      = some (0x00, flagBits 1 0 1 1 0, 0x0101) := by decide

/-- V-ALU ACI 0xFF + 0xFF + 1. -/
theorem test_aci :
    nextView (start (State.reset |>.setReg .a 0xFF |>.setFlags (flagBits 0 0 0 1 0)) [0xCE, 0xFF])
      (fun t => (t.regs.a, t.flags, t.pc))
      = some (0xFF, flagBits 0 1 1 1 0, 0x0102) := by decide

/-- E5, R176. -/
theorem test_subS :
    nextView (start (State.reset |>.setReg .a 0x00 |>.setReg .b 0x01) [0x90]) (fun t => (t.regs.a, t.flags, t.pc))
      = some (0xFF, flagBits 0 1 1 1 0, 0x0101) := by decide

/-- V-ALU-R SUB A. -/
theorem test_subS_a :
    nextView (start (State.reset |>.setReg .a 0x5A) [0x97]) (fun t => (t.regs.a, t.flags, t.pc))
      = some (0x00, flagBits 1 0 1 0 0, 0x0101) := by decide

/-- V-ALU-R SUB M. -/
theorem test_subM :
    nextView (start (State.reset |>.setReg .a 0x10 |>.setReg .h 0x20 |>.storeByte 0x2000 0x20) [0x96])
      (fun t => (t.regs.a, t.flags, t.pc))
      = some (0xF0, flagBits 0 1 1 1 0, 0x0101) := by decide

/-- V-ALU SUI 0x3C - 0xF0 with AC = 1. -/
theorem test_sui :
    nextView (start (State.reset |>.setReg .a 0x3C |>.setFlags (flagBits 0 0 0 1 1)) [0xD6, 0xF0])
      (fun t => (t.regs.a, t.flags, t.pc))
      = some (0x4C, flagBits 0 0 0 1 1, 0x0102) := by decide

/-- R179. -/
theorem test_sbbS :
    nextView (start (State.reset |>.setReg .a 0x04 |>.setReg .l 0x02 |>.setFlags (flagBits 0 0 0 1 0)) [0x9D])
      (fun t => (t.regs.a, t.flags, t.pc))
      = some (0x01, flagBits 0 0 0 0 0, 0x0101) := by decide

/-- V-ALU-R SBB A with CY = 1. -/
theorem test_sbbS_a :
    nextView (start (State.reset |>.setReg .a 0x5A |>.setFlags (flagBits 0 0 0 1 0)) [0x9F])
      (fun t => (t.regs.a, t.flags, t.pc))
      = some (0xFF, flagBits 0 1 1 1 0, 0x0101) := by decide

/-- R180, a zero result with a borrow. -/
theorem test_sbbM :
    nextView (start (State.reset |>.setReg .a 0x00 |>.setReg .h 0x20 |>.setFlags (flagBits 0 0 0 1 0) |>.storeByte 0x2000 0xFF) [0x9E])
      (fun t => (t.regs.a, t.flags, t.pc))
      = some (0x00, flagBits 1 0 1 1 0, 0x0101) := by decide

/-- R181. -/
theorem test_sbi :
    nextView (start (State.reset |>.setReg .a 0x05 |>.setFlags (flagBits 0 0 0 1 0)) [0xDE, 0x05])
      (fun t => (t.regs.a, t.flags, t.pc))
      = some (0xFF, flagBits 0 1 1 1 0, 0x0102) := by decide

/-- V-ALU-R ANA H. -/
theorem test_anaS :
    nextView (start (State.reset |>.setReg .a 0xF0 |>.setReg .h 0x3C |>.setFlags (flagBits 0 0 0 1 0)) [0xA4])
      (fun t => (t.regs.a, t.flags, t.pc))
      = some (0x30, flagBits 0 0 1 0 0, 0x0101) := by decide

/-- R183. -/
theorem test_anaM :
    nextView (start (State.reset |>.setReg .a 0xAA |>.setReg .h 0x20 |>.setFlags (flagBits 0 0 0 1 0) |>.storeByte 0x2000 0x55) [0xA6])
      (fun t => (t.regs.a, t.flags, t.pc))
      = some (0x00, flagBits 1 0 1 0 0, 0x0101) := by decide

/-- V-ALU ANI 0x3C and 0xF0 with AC = 1. -/
theorem test_ani :
    nextView (start (State.reset |>.setReg .a 0x3C |>.setFlags (flagBits 0 0 0 1 1)) [0xE6, 0xF0])
      (fun t => (t.regs.a, t.flags, t.pc))
      = some (0x30, flagBits 0 0 1 0 1, 0x0102) := by decide

/-- R185. -/
theorem test_xraS :
    nextView (start (State.reset |>.setReg .a 0x5C |>.setFlags (flagBits 0 0 0 1 0)) [0xAF])
      (fun t => (t.regs.a, t.flags, t.pc))
      = some (0x00, flagBits 1 0 1 0 0, 0x0101) := by decide

/-- R186. -/
theorem test_xraM :
    nextView (start (State.reset |>.setReg .a 0xFF |>.setReg .h 0x20 |>.storeByte 0x2000 0x0F) [0xAE])
      (fun t => (t.regs.a, t.flags, t.pc))
      = some (0xF0, flagBits 0 1 1 0 0, 0x0101) := by decide

/-- R187. -/
theorem test_xri :
    nextView (start (State.reset |>.setReg .a 0x81) [0xEE, 0x01]) (fun t => (t.regs.a, t.flags, t.pc))
      = some (0x80, flagBits 0 1 0 0 0, 0x0102) := by decide

/-- R188. -/
theorem test_oraS :
    nextView (start (State.reset |>.setReg .a 0x33 |>.setReg .b 0x0C |>.setFlags (flagBits 0 0 0 1 0)) [0xB0])
      (fun t => (t.regs.a, t.flags, t.pc))
      = some (0x3F, flagBits 0 0 1 0 0, 0x0101) := by decide

/-- V-ALU-R ORA M. -/
theorem test_oraM :
    nextView (start (State.reset |>.setReg .a 0x01 |>.setReg .h 0x20 |>.storeByte 0x2000 0x80) [0xB6])
      (fun t => (t.regs.a, t.flags, t.pc))
      = some (0x81, flagBits 0 1 1 0 0, 0x0101) := by decide

/-- R190. -/
theorem test_ori :
    nextView (start (State.reset |>.setReg .a 0x80) [0xF6, 0x01]) (fun t => (t.regs.a, t.flags, t.pc))
      = some (0x81, flagBits 0 1 1 0 0, 0x0102) := by decide

/-- V-ALU-R CMP E, A < E. -/
theorem test_cmpS_less :
    nextView (start (State.reset |>.setReg .a 0x05 |>.setReg .e 0x06) [0xBB]) (fun t => (t.regs.a, t.flags, t.pc))
      = some (0x05, flagBits 0 1 1 1 0, 0x0101) := by decide

/-- V-ALU-R CMP E, A > E. -/
theorem test_cmpS_greater :
    nextView (start (State.reset |>.setReg .a 0x07 |>.setReg .e 0x06) [0xBB]) (fun t => (t.regs.a, t.flags, t.pc))
      = some (0x07, flagBits 0 0 0 0 0, 0x0101) := by decide

/-- R192. -/
theorem test_cmpM :
    nextView (start (State.reset |>.setReg .a 0x02 |>.setReg .h 0x20 |>.storeByte 0x2000 0x05) [0xBE])
      (fun t => (t.regs.a, t.flags, t.pc))
      = some (0x02, flagBits 0 1 0 1 0, 0x0101) := by decide

/-- R193, the borrow-in is 0. -/
theorem test_cpi :
    nextView (start (State.reset |>.setReg .a 0x4A |>.setFlags (flagBits 0 0 0 1 0)) [0xFE, 0x4A])
      (fun t => (t.regs.a, t.flags, t.pc))
      = some (0x4A, flagBits 1 0 1 0 0, 0x0102) := by decide

/-! Increment, decrement, double add, rotates, carry (V-INC, V-DAD, V-ROT; 42_incdec_rotate_dad.md). -/

/-- V-INC INR B, wrap. -/
theorem test_inrD :
    nextView (start (State.reset |>.setReg .b 0xFF) [0x04]) (fun t => (t.regs.b, t.flags))
      = some (0x00, flagBits 1 0 1 1 0) := by decide

/-- V-INC INR A, CY in 1. -/
theorem test_inrD_clears_carry :
    nextView (start (State.reset |>.setReg .a 0x10 |>.setFlags (flagBits 0 0 0 1 0)) [0x3C])
      (fun t => (t.regs.a, t.flags))
      = some (0x11, flagBits 0 0 1 0 0) := by decide

/-- V-INC INR M. -/
theorem test_inrM :
    nextView (start (State.reset |>.setReg .h 0x20 |>.storeByte 0x2000 0xFF) [0x34])
      (fun t => (t.byteAt 0x2000, t.flags))
      = some (0x00, flagBits 1 0 1 1 0) := by decide

/-- V-INC DCR C, borrow. -/
theorem test_dcrD :
    nextView (start (State.reset |>.setReg .c 0x00) [0x0D]) (fun t => (t.regs.c, t.flags))
      = some (0xFF, flagBits 0 1 1 1 0) := by decide

/-- V-INC DCR C, to zero. -/
theorem test_dcrD_clears_carry :
    nextView (start (State.reset |>.setReg .c 0x01 |>.setFlags (flagBits 0 0 0 1 0)) [0x0D])
      (fun t => (t.regs.c, t.flags))
      = some (0x00, flagBits 1 0 1 0 0) := by decide

/-- R203. -/
theorem test_dcrM :
    nextView (start (State.reset |>.setReg .h 0x20 |>.setReg .l 0x10) [0x35]) (fun t => (t.byteAt 0x2010, t.flags))
      = some (0xFF, flagBits 0 1 1 1 0) := by decide

/-- V-INC INX B, wrap. -/
theorem test_inx :
    nextView (start (State.reset |>.setReg .b 0xFF |>.setReg .c 0xFF |>.setFlags (flagBits 1 0 0 0 0)) [0x03])
      (fun t => (t.regs.b, t.regs.c, t.flags))
      = some (0x00, 0x00, flagBits 1 0 0 0 0) := by decide

/-- V-INC INX H. -/
theorem test_inx_h :
    nextView (start (State.reset |>.setReg .h 0x12 |>.setReg .l 0xFF) [0x23]) (fun t => (t.regs.h, t.regs.l))
      = some (0x13, 0x00) := by decide

/-- V-INC DCX D, wrap. -/
theorem test_dcx :
    nextView (start State.reset [0x1B]) (fun t => (t.regs.d, t.regs.e, t.flags))
      = some (0xFF, 0xFF, flagBits 0 0 0 0 0) := by decide

/-- V-INC DCX SP. -/
theorem test_dcx_sp :
    nextView (start (State.reset |>.setSp 0x0000) [0x3B]) (fun t => (t.sp, t.pc))
      = some (0xFFFF, 0x0101) := by decide

/-- R207. -/
theorem test_dad :
    nextView (start (State.reset |>.setReg .h 0xA1 |>.setReg .l 0x7B |>.setReg .b 0x33 |>.setReg .c 0x9F |>.setFlags (flagBits 1 0 0 1 0)) [0x09])
      (fun t => (t.regs.h, t.regs.l, t.flags))
      = some (0xD5, 0x1A, flagBits 1 0 0 0 0) := by decide

/-- V-DAD DAD SP. -/
theorem test_dad_sp :
    nextView (start (State.reset |>.setReg .l 0x10 |>.setSp 0xFFF0) [0x39]) (fun t => (t.regs.h, t.regs.l, t.flags))
      = some (0x00, 0x00, flagBits 0 0 0 1 0) := by decide

/-- V-ROT RLC. -/
theorem test_rlc :
    nextView (start (State.reset |>.setReg .a 0xF2 |>.setFlags (flagBits 1 0 0 0 0)) [0x07])
      (fun t => (t.regs.a, t.flags))
      = some (0xE5, flagBits 1 0 0 1 0) := by decide

/-- V-ROT RRC. -/
theorem test_rrc :
    nextView (start (State.reset |>.setReg .a 0x01 |>.setFlags (flagBits 1 0 0 1 0)) [0x0F])
      (fun t => (t.regs.a, t.flags))
      = some (0x80, flagBits 1 0 0 1 0) := by decide

/-- V-ROT RAL. -/
theorem test_ral :
    nextView (start (State.reset |>.setReg .a 0x80 |>.setFlags (flagBits 1 0 0 1 0)) [0x17])
      (fun t => (t.regs.a, t.flags))
      = some (0x01, flagBits 1 0 0 1 0) := by decide

/-- V-ROT RAL, CY in 0. -/
theorem test_ral_zero :
    nextView (start (State.reset |>.setReg .a 0x80 |>.setFlags (flagBits 1 0 0 0 0)) [0x17])
      (fun t => (t.regs.a, t.flags))
      = some (0x00, flagBits 1 0 0 1 0) := by decide

/-- V-ROT RAR. -/
theorem test_rar :
    nextView (start (State.reset |>.setReg .a 0x80 |>.setFlags (flagBits 1 0 0 1 0)) [0x1F])
      (fun t => (t.regs.a, t.flags))
      = some (0xC0, flagBits 1 0 0 0 0) := by decide

/-- V-ROT RAR, CY in 0. -/
theorem test_rar_zero :
    nextView (start (State.reset |>.setReg .a 0x01 |>.setFlags (flagBits 1 0 0 0 0)) [0x1F])
      (fun t => (t.regs.a, t.flags))
      = some (0x00, flagBits 1 0 0 1 0) := by decide

/-- V-ROT CMA. -/
theorem test_cma :
    nextView (start (State.reset |>.setReg .a 0x51 |>.setFlags (flagBits 0 0 0 1 0)) [0x2F])
      (fun t => (t.regs.a, t.flags))
      = some (0xAE, flagBits 0 0 0 1 0) := by decide

/-- V-ROT STC. -/
theorem test_stc :
    nextView (start State.reset [0x37]) (fun t => t.flags)
      = some (flagBits 0 0 0 1 0) := by decide

/-- V-ROT CMC, CY in 1. -/
theorem test_cmc :
    nextView (start (State.reset |>.setFlags (flagBits 0 0 0 1 0)) [0x3F]) (fun t => t.flags)
      = some (flagBits 0 0 0 0 0) := by decide

/-- V-ROT CMC, CY in 0. -/
theorem test_cmc_zero :
    nextView (start State.reset [0x3F]) (fun t => t.flags)
      = some (flagBits 0 0 0 1 0) := by decide

/-! Branches (E6, V-BR; 43_branch.md). -/

/-- R232. -/
theorem test_jmp :
    nextView (start State.reset [0xC3, 0x34, 0x12]) (fun t => t.pc)
      = some 0x1234 := by decide

/-- V-BR JPO with P = 0. -/
theorem test_jccc_taken :
    nextView (start State.reset [0xE2, 0x34, 0x12]) (fun t => t.pc)
      = some 0x1234 := by decide

/-- E6. -/
theorem test_jccc_not_taken :
    nextView (start (State.reset |>.setFlags (flagBits 1 0 0 0 0)) [0xC2, 0x34, 0x12]) (fun t => t.pc)
      = some 0x0103 := by decide

/-- R234. -/
theorem test_call :
    nextView (start (State.reset |>.setSp 0x2400) [0xCD, 0x00, 0x02])
      (fun t => (t.byteAt 0x23FE, t.byteAt 0x23FF, t.sp, t.pc))
      = some (0x03, 0x01, 0x23FE, 0x0200) := by decide

/-- R235, CP with S = 0. -/
theorem test_cccc_taken :
    nextView (start (State.reset |>.setSp 0x2400) [0xF4, 0x00, 0x02])
      (fun t => (t.byteAt 0x23FE, t.byteAt 0x23FF, t.sp, t.pc))
      = some (0x03, 0x01, 0x23FE, 0x0200) := by decide

/-- R235, CC with CY = 0. -/
theorem test_cccc_not_taken :
    nextView (start (State.reset |>.setSp 0x2400) [0xDC, 0x00, 0x02]) (fun t => (t.byteAt 0x23FE, t.sp, t.pc))
      = some (0x00, 0x2400, 0x0103) := by decide

/-- R236. -/
theorem test_ret :
    nextView (start (State.reset |>.setSp 0x23FE |>.storeByte 0x23FE 0x03 |>.storeByte 0x23FF 0x01) [0xC9])
      (fun t => (t.sp, t.pc))
      = some (0x2400, 0x0103) := by decide

/-- R237, RM with S = 1. -/
theorem test_rccc_taken :
    nextView (start (State.reset |>.setSp 0x23FE |>.storeByte 0x23FE 0x03 |>.storeByte 0x23FF 0x01 |>.setFlags (flagBits 0 1 0 0 0)) [0xF8])
      (fun t => (t.sp, t.pc))
      = some (0x2400, 0x0103) := by decide

/-- R237, RPE with P = 0. -/
theorem test_rccc_not_taken :
    nextView (start (State.reset |>.setSp 0x23FE) [0xE8]) (fun t => (t.sp, t.pc))
      = some (0x23FE, 0x0101) := by decide

/-- R238. -/
theorem test_pchl :
    nextView (start (State.reset |>.setReg .h 0x23 |>.setReg .l 0x45) [0xE9]) (fun t => t.pc)
      = some 0x2345 := by decide

/-- R239, RST 1. -/
theorem test_rst :
    nextView (start (State.reset |>.setSp 0x2400) [0xCF])
      (fun t => (t.byteAt 0x23FE, t.byteAt 0x23FF, t.sp, t.pc, t.inte))
      = some (0x01, 0x01, 0x23FE, 0x0008, true) := by decide

/-! Stack (V-STK; 44_stack.md). -/

/-- V-STK PUSH H with sp = 1. -/
theorem test_pushRp :
    nextView (start (State.reset |>.setReg .h 0x9A |>.setReg .l 0xBC |>.setSp 0x0001) [0xE5])
      (fun t => (t.byteAt 0xFFFF, t.byteAt 0, t.sp))
      = some (0xBC, 0x9A, 0xFFFF) := by decide

/-- R256. -/
theorem test_pushPsw :
    nextView (start (State.reset |>.setReg .a 0x5A |>.setFlags (flagBits 0 1 1 1 1) |>.setSp 0x2400) [0xF5])
      (fun t => (t.byteAt 0x23FE, t.byteAt 0x23FF, t.sp))
      = some (0x97, 0x5A, 0x23FE) := by decide

/-- V-STK PUSH PSW, all flags 0. -/
theorem test_pushPsw_all_clear :
    nextView (start (State.reset |>.setSp 0x2400) [0xF5]) (fun t => (t.byteAt 0x23FE, t.byteAt 0x23FF))
      = some (0x02, 0x00) := by decide

/-- V-STK POP D with sp = 0xFFFF. -/
theorem test_popRp :
    nextView (start (State.reset |>.setSp 0xFFFF |>.storeByte 0xFFFF 0x11 |>.storeByte 0x0000 0x22) [0xD1])
      (fun t => (t.regs.d, t.regs.e, t.sp))
      = some (0x22, 0x11, 0x0001) := by decide

/-- R257. -/
theorem test_popPsw :
    nextView (start (State.reset |>.setSp 0x23FE |>.storeByte 0x23FE 0xD7 |>.storeByte 0x23FF 0x99) [0xF1])
      (fun t => (t.regs.a, t.flags, t.sp))
      = some (0x99, flagBits 1 1 1 1 1, 0x2400) := by decide

/-- R257, only bits 5 and 3. -/
theorem test_popPsw_unused_bits :
    nextView (start (State.reset |>.setSp 0x23FE |>.storeByte 0x23FE 0x28 |>.storeByte 0x23FF 0x01 |>.setFlags (flagBits 0 0 0 0 1)) [0xF1])
      (fun t => (t.regs.a, t.flags))
      = some (0x01, flagBits 0 0 0 0 0) := by decide

/-- V-STK XTHL with sp = 0xFFFF. -/
theorem test_xthl :
    nextView (start (State.reset |>.setReg .h 0x01 |>.setReg .l 0x02 |>.setSp 0xFFFF |>.storeByte 0xFFFF 0xAA |>.storeByte 0x0000 0xBB) [0xE3])
      (fun t => (t.regs.h, t.regs.l, t.byteAt 0xFFFF, t.byteAt 0, t.sp))
      = some (0xBB, 0xAA, 0x02, 0x01, 0xFFFF) := by decide

/-- R259. -/
theorem test_sphl :
    nextView (start (State.reset |>.setReg .h 0x50 |>.setReg .l 0x6C) [0xF9]) (fun t => t.sp)
      = some 0x506C := by decide

/-! Data transfer (E7, V-DT; 45_data_transfer.md). -/

/-- R270. -/
theorem test_movDS :
    nextView (start (State.reset |>.setReg .c 0x77) [0x41]) (fun t => (t.regs.b, t.regs.c, t.pc))
      = some (0x77, 0x77, 0x0101) := by decide

/-- R271, MOV H,M. -/
theorem test_movDM :
    nextView (start (State.reset |>.setReg .h 0x20 |>.setReg .l 0x10 |>.storeByte 0x2010 0x30) [0x66])
      (fun t => (t.regs.h, t.regs.l))
      = some (0x30, 0x10) := by decide

/-- V-DT MOV L,M. -/
theorem test_movDM_l :
    nextView (start (State.reset |>.setReg .h 0x20 |>.setReg .l 0x10 |>.storeByte 0x2010 0x99) [0x6E])
      (fun t => (t.regs.h, t.regs.l))
      = some (0x20, 0x99) := by decide

/-- V-DT MOV M,A. -/
theorem test_movMS :
    nextView (start (State.reset |>.setReg .a 0x99 |>.setReg .h 0x20 |>.setReg .l 0x10) [0x77])
      (fun t => t.byteAt 0x2010)
      = some 0x99 := by decide

/-- R272, MOV M,H. -/
theorem test_movMS_h :
    nextView (start (State.reset |>.setReg .h 0x20 |>.setReg .l 0x10) [0x74]) (fun t => t.byteAt 0x2010)
      = some 0x20 := by decide

/-- E7. -/
theorem test_mviD :
    nextView (start State.reset [0x06, 0x2A]) (fun t => (t.regs.b, t.pc, t.flags))
      = some (0x2A, 0x0102, flagBits 0 0 0 0 0) := by decide

/-- R274. -/
theorem test_mviM :
    nextView (start (State.reset |>.setReg .h 0x20) [0x36, 0xEE]) (fun t => (t.byteAt 0x2000, t.pc))
      = some (0xEE, 0x0102) := by decide

/-- V-DT LXI B. -/
theorem test_lxi :
    nextView (start State.reset [0x01, 0x34, 0x12]) (fun t => (t.regs.b, t.regs.c, t.pc))
      = some (0x12, 0x34, 0x0103) := by decide

/-- V-DT LXI SP. -/
theorem test_lxi_sp :
    nextView (start State.reset [0x31, 0x00, 0x24]) (fun t => (t.sp, t.pc))
      = some (0x2400, 0x0103) := by decide

/-- V-DT LDAX D. -/
theorem test_ldax :
    nextView (start (State.reset |>.setReg .d 0x20 |>.setReg .e 0x05 |>.storeByte 0x2005 0x42) [0x1A])
      (fun t => t.regs.a)
      = some 0x42 := by decide

/-- V-DT STAX B. -/
theorem test_stax :
    nextView (start (State.reset |>.setReg .a 0x37 |>.setReg .b 0x20 |>.setReg .c 0x06) [0x02])
      (fun t => t.byteAt 0x2006)
      = some 0x37 := by decide

/-- V-DT SHLD 0xFFFF. -/
theorem test_shld :
    nextView (start (State.reset |>.setReg .h 0xAB |>.setReg .l 0xCD) [0x22, 0xFF, 0xFF])
      (fun t => (t.byteAt 0xFFFF, t.byteAt 0))
      = some (0xCD, 0xAB) := by decide

/-- V-DT LHLD 0xFFFF. -/
theorem test_lhld :
    nextView (start (State.reset |>.storeByte 0xFFFF 0x34 |>.storeByte 0x0000 0x12) [0x2A, 0xFF, 0xFF])
      (fun t => (t.regs.h, t.regs.l))
      = some (0x12, 0x34) := by decide

/-- V-DT STA 0x2000. -/
theorem test_sta :
    nextView (start (State.reset |>.setReg .a 0x5E) [0x32, 0x00, 0x20]) (fun t => (t.byteAt 0x2000, t.pc))
      = some (0x5E, 0x0103) := by decide

/-- R377: the operand bytes are fetched before the write. -/
theorem test_sta_own_operand :
    nextView (start (State.reset |>.setReg .a 0x5E) [0x32, 0x01, 0x01]) (fun t => (t.byteAt 0x0101, t.byteAt 0x0102))
      = some (0x5E, 0x01) := by decide

/-- V-DT LDA 0x2000. -/
theorem test_lda :
    nextView (start (State.reset |>.storeByte 0x2000 0x77) [0x3A, 0x00, 0x20]) (fun t => (t.regs.a, t.pc))
      = some (0x77, 0x0103) := by decide

/-- V-DT XCHG. -/
theorem test_xchg :
    nextView (start (State.reset |>.setReg .d 0x12 |>.setReg .e 0x34 |>.setReg .h 0x56 |>.setReg .l 0x78) [0xEB])
      (fun t => (t.regs.d, t.regs.e, t.regs.h, t.regs.l))
      = some (0x56, 0x78, 0x12, 0x34) := by decide

/-! Input, output, machine control (V-IO, V-SH; 46_io_machine_control.md). -/

/-- V-IO IN 1. -/
theorem test_inPort :
    nextView (start (State.reset |>.setLatch 1 0x81) [0xDB, 0x01]) (fun t => (t.regs.a, t.latch 1, t.pc))
      = some (0x81, 0x81, 0x0102) := by decide

/-- V-IO IN 7. -/
theorem test_inPort_unwritten :
    nextView (start (State.reset |>.setReg .a 0x55) [0xDB, 0x07]) (fun t => t.regs.a)
      = some 0x00 := by decide

/-- V-IO OUT 2. -/
theorem test_outPort_amount :
    nextView (start (State.reset |>.setReg .a 0xFD |>.setShreg 0x12FF) [0xD3, 0x02])
      (fun t => (t.shamt, t.shreg, t.latch 3))
      = some (5, 0x12FF, 0x5F) := by decide

/-- V-IO OUT 4. -/
theorem test_outPort_data :
    nextView (start (State.reset |>.setReg .a 0xAB |>.setShreg 0x12FF) [0xD3, 0x04])
      (fun t => (t.shamt, t.shreg, t.latch 3))
      = some (0, 0xAB12, 0xAB) := by decide

/-- V-IO EI. -/
theorem test_ei :
    nextView (start (State.reset |>.setInte false) [0xFB]) (fun t => (t.inte, t.pc))
      = some (true, 0x0101) := by decide

/-- V-IO DI. -/
theorem test_di :
    nextView (start State.reset [0xF3]) (fun t => (t.inte, t.pc))
      = some (false, 0x0101) := by decide

/-- V-IO NOP. -/
theorem test_nop :
    nextView (start State.reset [0x00]) (fun t => (t.pc, t.regs, t.status))
      = some (0x0101, State.reset.regs, Status.running) := by decide

/-- V-IO HLT. -/
theorem test_hlt :
    nextView (start State.reset [0x76]) (fun t => (t.status, t.pc))
      = some (Status.halted, 0x0101) := by decide

/-! The step's edges, faults, interrupts and the host. -/

/-- R273: the opcode at 0xFFFF, its immediate at 0x0000. -/
theorem test_fetch_wraps :
    nextView (State.reset |>.setPc 0xFFFF |>.storeByte 0xFFFF 0x06 |>.storeByte 0 0x99) (fun t => (t.regs.b, t.pc))
      = some (0x99, 0x0001) := by decide

/-- V-FLT: 0x27 at 0x0100. -/
theorem test_unknown :
    step (start (State.reset.setReg .a 0x09) [0x27]) = .fault (.fatal (.unknownOpcode 0x27 0x0100)
      (start (State.reset.setReg .a 0x09) [0x27] |>.setPc 0x0101 |>.setStatus (.faulted (.unknownOpcode 0x27 0x0100)))) :=
  rfl

/-- R322, R323: the kinds' numbers, and the checks just outside and at the last value inside their ranges. -/
theorem test_checks_at_the_bounds :
    getR State.reset 8 = .error (.indexOutOfRange .register 8) ∧ getR State.reset 7 = .ok 0 ∧
      getRP State.reset 4 = .error (.indexOutOfRange .pair 4) ∧ getRP State.reset 3 = .ok 0 ∧
      getRPpsw State.reset 3 = .ok 0x0002 ∧
      condHolds State.reset.flags 8 = .error (.indexOutOfRange .condition 8) ∧ condHolds State.reset.flags 7 = .ok false ∧
      memRead8 State.reset 65536 = .error (.addressOutOfRange 65536) ∧ memRead8 State.reset 65535 = .ok 0 := by decide

/-- E10 and V-INT: RST 1 at pc = 0x1234, sp = 0x2400. -/
theorem test_inject :
    view (inject 0xCF (State.reset |>.setPc 0x1234 |>.setSp 0x2400))
      (fun t => (t.pc, t.sp, t.byteAt 0x23FE, t.byteAt 0x23FF, t.inte)) = some (0x0008, 0x23FE, 0x34, 0x12, false) := by decide

/-- V-INT: dropped with interrupts off, refused when it is not an RST, without effect after HLT. -/
theorem test_inject_not_taken :
    inject 0xCF (State.reset.setInte false) = .next (State.reset.setInte false) ∧
      inject 0xC3 State.reset = .refused (.injectedNotRst 0xC3) ∧
      inject 0xCF (State.reset.setStatus .halted) = .next (State.reset.setStatus .halted) := ⟨rfl, rfl, rfl⟩

/-- R341, R343: the display injects RST 1, then RST 2; the input host writes latch 1 and no other. -/
theorem test_host :
    view (hostAct (.refresh .second) (State.reset |>.setPc 0x0044 |>.setSp 0x2400))
      (fun t => (t.pc, t.byteAt 0x23FE, t.byteAt 0x23FF)) = some (0x0010, 0x44, 0x00) ∧
    view (hostAct (.writeLatch 1 0x81) State.reset) (fun t => t.latch 1) = some 0x81 ∧
    hostAct (.writeLatch 3 0x81) State.reset = .refused (.latchNotHostWritable 3) := ⟨by decide, by decide, rfl⟩

/-- R370, R372: the image is loaded from address 0. -/
theorem test_resetWith :
    ((State.resetWith [0x3E, 0x09, 0x27]).byteAt 0, (State.resetWith [0x3E, 0x09, 0x27]).byteAt 2,
      (State.resetWith [0x3E, 0x09, 0x27]).byteAt 3, (State.resetWith [0x3E, 0x09, 0x27]).inte) = (0x3E, 0x27, 0, true) := by
  decide

/-- R338: the visible result of 0x12FF for each amount. -/
theorem test_shiftExtract :
    (List.range 8).map (fun k => shiftExtract 0x12FF (BitVec.ofNat 3 k)) =
      [0x12, 0x25, 0x4B, 0x97, 0x2F, 0x5F, 0xBF, 0x7F] := by decide

/-- E3: parity. -/
theorem test_parity : parity 0x00 = true ∧ parity 0x01 = false ∧ parity 0xFF = true ∧ parity 0x07 = false := by decide

/-- A run ends at a termination, before the moves after it; a write of what an unlisted byte reads as removes the entry. -/
theorem test_runs_and_cells :
    runEvents [.step, .host .terminate, .step] State.reset = .next (State.reset.setPc 1) ∧
      ((State.reset.storeByte 5 7).storeByte 5 0).mem = [] ∧ ((State.reset.storeByte 5 7).storeByte 2 9).mem = [(2, 9), (5, 7)] :=
  ⟨rfl, by decide, by decide⟩

/-! Witnesses: what meets a statement's hypotheses, all together, at boundary values for each clause. -/

theorem witness_DecodeOfEncode :
    (Instr.movDS 7 5).wellFormed = true ∧ (Instr.lxi 3 0xFFFF).wellFormed = true ∧ (Instr.rccc 7).wellFormed = true ∧
      (Instr.stax 1).wellFormed = true ∧ (Instr.popRp 2).wellFormed = true ∧ (Instr.unknown 0xFD).wellFormed = true := by decide

theorem witness_EncodeOfDecode : decode [0xC2, 0x34, 0x12, 0x99] = .ok (.jccc 0 0x1234, [0x99]) := by decide

theorem witness_UnknownOpcodesAreThirteen :
    (0xFD : Byte) ∈ ([0x08, 0x10, 0x18, 0x20, 0x28, 0x30, 0x38, 0x27, 0xCB, 0xD9, 0xDD, 0xED, 0xFD] : List Byte) ∧
      classify 0xFD = .unknown ∧ State.reset.status = .running := by decide

theorem witness_StepRunsDecodedInstruction :
    let s := State.reset |>.setPc 0xFFFF |>.storeByte 0xFFFF 0x06 |>.storeByte 0 0x99
    s.status = .running ∧ decode [s.byteAt s.pc, s.byteAt (s.pc + 1), s.byteAt (s.pc + 2)] = .ok (.mviD 0 0x99, [0]) := by decide

/-- StepRunsEncodedInstruction, and the step clauses of MoveImmediateResults, JumpResults, CallResults, ReturnResults and
RestartResult: instructions spelled at `pc`, the first over the end of memory. -/
theorem witness_spelled_instructions :
    (SpelledAtPc (State.reset |>.setPc 0xFFFF |>.storeByte 0xFFFF 0x06 |>.storeByte 0 0x99) (encode (.mviD 0 0x99)) ∧
      (State.reset |>.setPc 0xFFFF |>.storeByte 0xFFFF 0x06 |>.storeByte 0 0x99).status = .running ∧
      (Instr.mviD 0 0x99).wellFormed = true) ∧
    SpelledAtPc (start State.reset [0xFA, 0x34, 0x12]) (encode (.jccc 7 0x1234)) ∧
    SpelledAtPc (start State.reset [0xCD, 0x00, 0x02]) (encode (.call 0x0200)) ∧
    SpelledAtPc (start State.reset [0xC4, 0x00, 0x02]) (encode (.cccc 0 0x0200)) ∧
    SpelledAtPc (start State.reset [0xF8]) (encode (.rccc 7)) ∧
    SpelledAtPc (start State.reset [0xFF]) (encode (.rst 7)) ∧ (start State.reset [0xFF]).status = .running := by
  unfold SpelledAtPc
  decide

theorem witness_StepNeedsRunning :
    (State.reset.setStatus .halted).status ≠ .running ∧
      (State.reset.setStatus (.faulted (.unknownOpcode 0x27 2))).status ≠ .running := by decide

theorem witness_UnknownOpcodeFault :
    (start State.reset [0x27]).status = .running ∧
      (start State.reset [0x27]).byteAt (start State.reset [0x27]).pc ∈ unknownOpcodes := by decide

theorem witness_IndexOutOfRangeChecks : 8 ≤ 8 ∧ 4 ≤ 4 ∧ runEvent .step State.reset = .next (State.reset.setPc 1) :=
  ⟨by decide, by decide, rfl⟩

theorem witness_AddressOutOfRangeChecks :
    65536 ≤ 65536 ∧ memWrite16 State.reset 65536 0x1234 = .error (.addressOutOfRange 65536) ∧
      memRead16 State.reset 65535 = .ok 0 := by decide

theorem witness_DecodableInstructionsComplete :
    (Instr.hlt.wellFormed = true ∧ ∀ op, Instr.hlt ≠ .unknown op) ∧
      ((Instr.cccc 7 0).wellFormed = true ∧ ∀ op, Instr.cccc 7 0 ≠ .unknown op) :=
  ⟨⟨rfl, fun _ h => by cases h⟩, ⟨rfl, fun _ h => by cases h⟩⟩

/-- The first out-of-range register, pair and condition index, and the last in range (RegisterIndexAccess, PairIndexAccess,
ConditionCodes). -/
theorem witness_operand_access : 8 ≤ 8 ∧ 3 < 4 ∧ 2 < 3 ∧ 7 < 8 := by decide

/-- The first, the last below 6 and the last register index (the register clauses of AddAndAdcResults, SubAndSbbResults,
LogicalResults, CompareResults, IncrementResults, DecrementResults, MoveResults, MoveImmediateResults). -/
theorem witness_register_clauses : (0 < 8 ∧ 0 ≠ 6) ∧ (5 < 8 ∧ 5 ≠ 6) ∧ 7 < 8 ∧ 7 ≠ 6 := by decide

/-- The last pair of PairIncrementDecrementResults, DoubleAddResult and LoadPairImmediateResult, of PushPopPairResults, of
IndirectAccumulatorResults, and the last condition of JumpResults, CallResults and ReturnResults. -/
theorem witness_pair_and_condition_clauses : 3 < 4 ∧ 2 < 3 ∧ 1 < 2 ∧ 7 < 8 := by decide

/-- PswPushPopResults, its last clause: a POP PSW that changes AC. -/
theorem witness_PswPushPopResults :
    Instr.popPsw.wellFormed = true ∧
      view (exec .popPsw (State.reset.storeByte 0 0x10)) (fun t => t.flags.ac) = some true ∧
      (State.reset.storeByte 0 0x10).flags.ac = false := by decide

/-- RestartResult: an injection that is accepted. -/
theorem witness_RestartResult : State.reset.status = .running ∧ State.reset.inte = true := by decide

/-- TwoByteAccess at the top of memory: an address that is neither of the two bytes. -/
theorem witness_TwoByteAccess :
    (1 : Word) ≠ 0xFFFF ∧ (1 : Word) ≠ 0xFFFF + 1 ∧
      view (conclude State.reset (memWrite16 State.reset 0xFFFF 0xABCD)) (fun t => (t.byteAt 0xFFFF, t.byteAt 0, t.byteAt 1))
        = some (0xCD, 0xAB, 0) := by decide

/-- OutPortResult: each of its clauses, port 2, port 4, and a port beside each. -/
theorem witness_OutPortResult :
    view (exec (.outPort 2) (State.reset.setReg .a 0xFF)) (fun t => (t.shamt, t.shreg)) = some (7, 0) ∧
      view (exec (.outPort 4) (State.reset.setReg .a 0xFF)) (fun t => (t.shamt, t.shreg, t.latch 3)) = some (0, 0xFF00, 0xFF) ∧
      exec (.outPort 3) State.reset = .next State.reset ∧ exec (.outPort 5) State.reset = .next State.reset :=
  ⟨by decide, by decide, rfl, rfl⟩

/-- InjectionResult: each of its clauses. -/
theorem witness_InjectionResult :
    (State.reset.setStatus .halted).status ≠ .running ∧ (0xCB : Byte) &&& 0xC7 ≠ 0xC7 ∧
      (State.reset.setInte false).inte = false ∧ (0xFF : Byte) &&& 0xC7 = 0xC7 := by decide

theorem witness_SecondInjectionDropped :
    State.reset.status = .running ∧ State.reset.inte = true ∧ (∃ t, inject 0xCF State.reset = .next t) ∧
      (0xD7 : Byte) &&& 0xC7 = 0xC7 := ⟨rfl, rfl, ⟨_, rfl⟩, by decide⟩

/-- HostActionResults: the last byte of the window, a latch beside the writable one, and both kinds of status. -/
theorem witness_HostActionResults :
    7167 < 7168 ∧ State.reset.status = .running ∧ (3 : Byte) ≠ 1 ∧
      (State.reset.setStatus .halted).status ≠ .running := by decide

theorem witness_StepKeepsInvariant : State.reset.Inv ∧ ∃ t, step State.reset = .next t := ⟨by decide, ⟨_, rfl⟩⟩

/-- ResetStateIsEmptyImage: images that agree though their lengths differ, and images that do not. -/
theorem witness_ResetStateIsEmptyImage :
    (∀ k, k < 8192 → ([0, 0] : List Byte).getD k 0 = 0) ∧ (∀ k, k < 8192 → ([9, 0] : List Byte).getD k 0 = ([9] : List Byte).getD k 0) ∧
      ¬ (∀ k, k < 8192 → ([0, 9] : List Byte).getD k 0 = 0) := by
  refine ⟨fun k _ => ?_, fun k _ => ?_, fun h => absurd (h 1 (by decide)) (by decide)⟩
  · rcases k with _ | _ | k <;> rfl
  · rcases k with _ | k <;> [rfl; rcases k with _ | k <;> rfl]

/-- Zeros of an image list nothing, and a byte that is none is listed. -/
theorem test_resetWith_states :
    State.resetWith [0, 0] = State.reset ∧ State.resetWith [9, 0] = State.resetWith [9] ∧
      State.resetWith [0, 9] ≠ State.reset := by decide

theorem witness_ReachableStatesMeetInvariant : Reachable (State.resetWith [0x3E, 0x09, 0x27]) := .reset _

theorem witness_RegisterFrame :
    (Instr.popRp 2).wellFormed = true ∧ (∃ t, exec (.popRp 2) State.reset = .next t) ∧ RegName.b ∉ destRegs (.popRp 2) :=
  ⟨rfl, ⟨_, rfl⟩, by decide⟩

/-- FlagFrame: each of its clauses. -/
theorem witness_FlagFrame :
    (flagClass (.inx 3) = .none ∧ ∃ t, exec (.inx 3) State.reset = .next t) ∧
      (flagClass (.dad 3) = .carry ∧ ∃ t, exec (.dad 3) State.reset = .next t) ∧
      (flagClass (.inrD 7) = .allButAc ∧ ∃ t, exec (.inrD 7) State.reset = .next t) :=
  ⟨⟨rfl, _, rfl⟩, ⟨rfl, _, rfl⟩, ⟨rfl, _, rfl⟩⟩

/-- MemoryFrame: a store over the end of memory, and an instruction that stores nothing. -/
theorem witness_MemoryFrame :
    ((Instr.shld 0xFFFF).wellFormed = true ∧ (∃ t, exec (.shld 0xFFFF) State.reset = .next t) ∧
      ¬ inSite 1 (storeSite (.shld 0xFFFF) State.reset)) ∧
    ((Instr.lda 0).wellFormed = true ∧ (∃ t, exec (.lda 0) State.reset = .next t) ∧
      ¬ inSite 0 (storeSite (.lda 0) State.reset)) :=
  ⟨⟨rfl, ⟨_, rfl⟩, by simp [storeSite, inSite]⟩, ⟨rfl, ⟨_, rfl⟩, by simp [storeSite, inSite]⟩⟩

/-- ControlStateFrame: an instruction that meets all its clauses' conditions, and one on each side of the shifter's. -/
theorem witness_ControlStateFrame :
    (writesSp .nop = false ∧ isTransfer .nop = false ∧ ∃ t, exec .nop State.reset = .next t) ∧
      (∃ t, exec (.outPort 2) State.reset = .next t) ∧ ∃ t, exec (.outPort 4) State.reset = .next t :=
  ⟨⟨rfl, rfl, _, rfl⟩, ⟨_, rfl⟩, ⟨_, rfl⟩⟩

theorem witness_PcAfterStraightStep :
    (∃ t, step (start State.reset [0x31, 0x00, 0x24]) = .next t) ∧
      decode [0x31, 0x00, 0x24] = .ok (.lxi 3 0x2400, []) ∧ isTransfer (.lxi 3 0x2400) = false := ⟨⟨_, rfl⟩, by decide, rfl⟩

theorem witness_AuxiliaryCarryOnlyByPopPsw :
    nextView (start (State.reset.storeByte 0 0x10) [0xF1]) (fun t => t.flags.ac) = some true ∧
      State.reset.flags.ac = false := by decide

theorem witness_InterruptEnableOnlyByEiDi :
    nextView (start State.reset [0xF3]) (fun t => t.inte) = some false ∧ State.reset.inte = true ∧
      nextView (start (State.reset.setInte false) [0xFB]) (fun t => t.inte) = some true := by decide

theorem witness_LatchesOnlyByShifter :
    nextView (start (State.reset.setReg .a 0xFF) [0xD3, 0x04]) (fun t => t.latch 3) = some 0xFF ∧
      State.reset.latch 3 = 0 ∧
      nextView (start (State.reset |>.setReg .a 0x01 |>.setShreg 0x8080) [0xD3, 0x02]) (fun t => t.latch 3) = some 0x01 := by
  decide

end Sys2Proof.Tests
end

section
/-!
The flag laws of R16: parity as the evenness of a count, and `setZSP` as the expected flags `resultFlags`.
-/
namespace Sys2Proof.Machine

/-- The bits of a list exclusive-or to 1 exactly when an odd number of them is set. -/
theorem foldr_xor_eq_countP_odd (bit : Nat → Bool) (ks : List Nat) :
    ks.foldr (fun k odd => bit k ^^ odd) false = (ks.countP bit % 2 == 1) := by
  induction ks with
  | nil => rfl
  | cons k ks ih =>
    rw [List.foldr_cons, ih, List.countP_cons]
    cases bit k with
    | false => simp
    | true => rcases Nat.mod_two_eq_zero_or_one (ks.countP bit) with even | odd <;> simp [Nat.add_mod, *]

/-- `parity` folds the exclusive or over the eight bit positions that `evenOnes` counts over. -/
theorem parity_eq_not_foldr_xor (v : Byte) :
    parity v = !(List.range 8).foldr (fun k odd => v.getLsbD k ^^ odd) false := by
  simp [parity, List.range_succ]

theorem parity_eq_evenOnes (v : Byte) : parity v = evenOnes v := by
  rw [parity_eq_not_foldr_xor, foldr_xor_eq_countP_odd, evenOnes]
  rcases Nat.mod_two_eq_zero_or_one ((List.range 8).countP (fun k => v.getLsbD k)) with even | odd <;>
    simp only [*] <;> rfl

/-- The sign bit of a byte is set exactly from 128 on. -/
theorem getLsbD_seven_eq_decide (v : Byte) : v.getLsbD 7 = decide (128 ≤ v.toNat) :=
  (BitVec.msb_eq_getLsbD_last v).symm.trans (BitVec.msb_eq_decide v)

/-- `setZSP` alone writes the flags of a result and keeps the carry. -/
theorem Flags.setZSP_eq_resultFlags (f : Flags) (v : Byte) : f.setZSP v = resultFlags f v f.cy := by
  rw [Flags.setZSP, getLsbD_seven_eq_decide, parity_eq_evenOnes, resultFlags]

/-- Settles O13: the exclusive or of the bits is the count's evenness, and `setZSP` is `resultFlags` with CY kept. -/
theorem parityAndSetZSP : Obligations.ParityAndSetZSP :=
  fun v f => ⟨parity_eq_evenOnes v, Flags.setZSP_eq_resultFlags f v⟩

end Sys2Proof.Machine
end

section
/-!
The decoder reads a well-formed instruction, and the bytes it read are that instruction's encoding (R105, R106).
-/
namespace Sys2Proof

/-- The operand bytes do not decide whether an instruction is well-formed. -/
theorem assemble_wellFormed_operands (op b2 b3 : Byte) :
    (assemble op b2 b3).wellFormed = (assemble op 0 0).wellFormed := by
  unfold assemble
  cases classify op
  case aluImm =>
    simp only [assembleAluImm]
    split <;> rfl
  case direct =>
    simp only [assembleDirect]
    split <;> rfl
  case mvi =>
    simp only
    split <;> rfl
  all_goals rfl

/-- The encoding of what an opcode and its operand bytes assemble to ends with exactly the operand bytes the opcode needs. -/
theorem encode_assemble_operands (op b2 b3 : Byte) :
    encode (assemble op b2 b3) =
      (encode (assemble op 0 0)).take 1 ++ [b2, b3].take (classify op).operandCount := by
  unfold assemble
  cases classify op
  case mov =>
    simp only [assembleMov]
    split
    · rfl
    · split <;> rfl
  case alu =>
    simp only [assembleAlu]
    split <;> split <;> rfl
  case aluImm =>
    simp only [assembleAluImm]
    split <;> rfl
  case rot =>
    simp only [assembleRotate]
    split <;> rfl
  case push | pop | mvi | inr | dcr =>
    simp only
    split <;> rfl
  case direct =>
    simp only [assembleDirect]
    split <;> simp [encode, bytesF3, Form.operandCount]
  case jmp | jccc | call | cccc | lxi => simp [encode, bytesF3, Form.operandCount]
  all_goals rfl

/-- Over the 256 opcodes: the instruction is well-formed, and its encoding begins with the opcode. -/
theorem assemble_opcode : ∀ op : Byte,
    (assemble op 0 0).wellFormed = true ∧ (encode (assemble op 0 0)).take 1 = [op] := by
  decide

theorem assemble_wellFormed (op b2 b3 : Byte) : (assemble op b2 b3).wellFormed = true :=
  (assemble_wellFormed_operands op b2 b3).trans (assemble_opcode op).1

theorem encode_assemble (op b2 b3 : Byte) :
    encode (assemble op b2 b3) = op :: [b2, b3].take (classify op).operandCount := by
  rw [encode_assemble_operands, (assemble_opcode op).2, List.singleton_append]

/-- What a decoded instruction is (R105, R106, R114): well-formed, and encoded by the bytes that were read. -/
theorem decode_ok_inv {bytes : List Byte} {i : Instr} {rest : List Byte} (h : decode bytes = .ok (i, rest)) :
    i.wellFormed = true ∧ bytes = encode i ++ rest := by
  unfold decode at h
  split at h
  · cases h
  · split at h <;> cases h <;> simp [assemble_wellFormed, encode_assemble, *]

end Sys2Proof
end

section
/-!
What each instruction does, said once: the next state `effect i s` of a well-formed instruction, in which no check fires.
-/
namespace Sys2Proof.Machine

/-! Operand access at an index in range. -/

theorem getRP_eq_pairAt (s : State) {p : Nat} (h : p < 4) : getRP s p = .ok (pairAt s p) := by
  interval_cases p <;> rfl

theorem setRP_eq_withPair (s : State) {p : Nat} (v : Word) (h : p < 4) : setRP s p v = .ok (withPair s p v) := by
  interval_cases p <;> rfl

theorem condHolds_eq_conditionTrue (f : Flags) {c : Nat} (h : c < 8) :
    condHolds f c = .ok (conditionTrue f c) := by
  interval_cases c <;> simp [condHolds, conditionTrue]

/-- The state after a call is taken (R230). -/
def State.afterCall (s : State) (target : Word) : State :=
  ((s.setSp (s.sp - 2)).storeWord (s.sp - 2) s.pc).setPc target

/-- The state after a return is taken (R230). -/
def State.afterReturn (s : State) : State := (s.setSp (s.sp + 2)).setPc (s.wordAt s.sp)

/-- The state after a push (R250). -/
def State.afterPush (s : State) (v : Word) : State := (s.setSp (s.sp - 2)).storeWord (s.sp - 2) v

/-- The next state of a well-formed instruction. An unknown opcode has none, and stands with the state it began on. -/
def effect (i : Instr) (s : State) : State :=
  match i with
  | .nop | .unknown _ => s
  | .hlt => s.setStatus .halted
  | .ei => s.setInte true
  | .di => s.setInte false
  | .xchg => (s.setDe s.hl).setHl s.de
  | .xthl => (s.storeWord s.sp s.hl).setHl (s.wordAt s.sp)
  | .sphl => s.setSp s.hl
  | .pchl => s.setPc s.hl
  | .stc => s.setFlags (s.flags.setCy true)
  | .cmc => s.setFlags (s.flags.setCy (!s.flags.cy))
  | .cma => s.setReg .a (~~~ s.regs.a)
  | .inPort port => s.setReg .a (s.latch port)
  | .outPort port =>
    if port = shiftAmountPort then shiftSetAmount s s.regs.a
    else if port = shiftDataPort then shiftPushByte s s.regs.a
    else s
  | .movDS d r => s.setReg (regName d) (s.regs.get (regName r))
  | .movDM d => s.setReg (regName d) (s.byteAt s.hl)
  | .movMS r => s.storeByte s.hl (s.regs.get (regName r))
  | .addS r => aluWrite aluAdd s (s.regs.get (regName r))
  | .addM => aluWrite aluAdd s (s.byteAt s.hl)
  | .adi imm => aluWrite aluAdd s imm
  | .adcS r => aluWrite aluAdc s (s.regs.get (regName r))
  | .adcM => aluWrite aluAdc s (s.byteAt s.hl)
  | .aci imm => aluWrite aluAdc s imm
  | .subS r => aluWrite aluSub s (s.regs.get (regName r))
  | .subM => aluWrite aluSub s (s.byteAt s.hl)
  | .sui imm => aluWrite aluSub s imm
  | .sbbS r => aluWrite aluSbb s (s.regs.get (regName r))
  | .sbbM => aluWrite aluSbb s (s.byteAt s.hl)
  | .sbi imm => aluWrite aluSbb s imm
  | .anaS r => aluWrite aluAnd s (s.regs.get (regName r))
  | .anaM => aluWrite aluAnd s (s.byteAt s.hl)
  | .ani imm => aluWrite aluAnd s imm
  | .xraS r => aluWrite aluXor s (s.regs.get (regName r))
  | .xraM => aluWrite aluXor s (s.byteAt s.hl)
  | .xri imm => aluWrite aluXor s imm
  | .oraS r => aluWrite aluOr s (s.regs.get (regName r))
  | .oraM => aluWrite aluOr s (s.byteAt s.hl)
  | .ori imm => aluWrite aluOr s imm
  | .cmpS r => aluCompare aluSub s (s.regs.get (regName r))
  | .cmpM => aluCompare aluSub s (s.byteAt s.hl)
  | .cpi imm => aluCompare aluSub s imm
  | .jmp addr => s.setPc addr
  | .jccc c addr => if conditionTrue s.flags c then s.setPc addr else s
  | .call addr => s.afterCall addr
  | .cccc c addr => if conditionTrue s.flags c then s.afterCall addr else s
  | .ret => s.afterReturn
  | .rccc c => if conditionTrue s.flags c then s.afterReturn else s
  | .rst n => s.afterCall (restartVector n)
  | .pushRp p => s.afterPush (pairAt s p)
  | .pushPsw => s.afterPush (joinBytes s.regs.a (packF s.flags))
  | .popRp p => withPair (s.setSp (s.sp + 2)) p (s.wordAt s.sp)
  | .popPsw => ((s.setSp (s.sp + 2)).setReg .a (hi8 (s.wordAt s.sp))).setFlags (unpackF (lo8 (s.wordAt s.sp)))
  | .rlc => s.accumulate (rotateLeft s.flags s.regs.a)
  | .rrc => s.accumulate (rotateRight s.flags s.regs.a)
  | .ral => s.accumulate (rotateLeftCarry s.flags s.regs.a)
  | .rar => s.accumulate (rotateRightCarry s.flags s.regs.a)
  | .lxi p imm16 => withPair s p imm16
  | .mviD d imm => s.setReg (regName d) imm
  | .mviM imm => s.storeByte s.hl imm
  | .ldax p => s.setReg .a (s.byteAt (pairAt s p))
  | .stax p => s.storeByte (pairAt s p) s.regs.a
  | .inx p => withPair s p (pairAt s p + 1)
  | .dcx p => withPair s p (pairAt s p - 1)
  | .inrD d =>
    let r := inc8 s.flags (s.regs.get (regName d))
    (s.setFlags r.2).setReg (regName d) r.1
  | .inrM =>
    let r := inc8 s.flags (s.byteAt s.hl)
    (s.setFlags r.2).storeByte s.hl r.1
  | .dcrD d =>
    let r := dec8 s.flags (s.regs.get (regName d))
    (s.setFlags r.2).setReg (regName d) r.1
  | .dcrM =>
    let r := dec8 s.flags (s.byteAt s.hl)
    (s.setFlags r.2).storeByte s.hl r.1
  | .dad p =>
    let r := add16 s.flags s.hl (pairAt s p)
    (s.setHl r.1).setFlags r.2
  | .shld addr => s.storeWord addr s.hl
  | .lhld addr => s.setHl (s.wordAt addr)
  | .sta addr => s.storeByte addr s.regs.a
  | .lda addr => s.setReg .a (s.byteAt addr)

/-! The checked operations the arms of `exec` share, at operands in range. -/

theorem getR_of_isRegisterIndex (s : State) {r : Nat} (h : isRegisterIndex r = true) :
    getR s r = .ok (s.regs.get (regName r)) :=
  have ⟨h8, h6⟩ := (isRegisterIndex_iff r).1 h
  getR_reg s h8 h6

theorem setR_of_isRegisterIndex (s : State) {r : Nat} (v : Byte) (h : isRegisterIndex r = true) :
    setR s r v = .ok (s.setReg (regName r) v) :=
  have ⟨h8, h6⟩ := (isRegisterIndex_iff r).1 h
  setR_reg s v h8 h6

theorem aluReg_of_isRegisterIndex (after : State → Byte → State) (s : State) {r : Nat} (h : isRegisterIndex r = true) :
    aluReg after r s = .next (after s (s.regs.get (regName r))) := by
  simp [aluReg, getR_of_isRegisterIndex s h]

/-- A well-formed instruction other than an unknown opcode completes in its effect: its index fields are in range, so each check
of R322 passes, and its addresses are words, so each check of R323 does. -/
theorem exec_eq_effect {i : Instr} (hwf : i.wellFormed = true) (hknown : ∀ op, i ≠ .unknown op) (s : State) :
    exec i s = .next (effect i s) := by
  cases i
  case unknown op => exact absurd rfl (hknown op)
  case outPort port =>
    simp only [exec, execOutPort, effect]
    split
    · rfl
    · split <;> rfl
  case addS | adcS | subS | sbbS | anaS | xraS | oraS | cmpS => exact aluReg_of_isRegisterIndex _ s hwf
  case addM | adcM | subM | sbbM | anaM | xraM | oraM | cmpM => exact aluMem_eq _ s
  case movDS d r =>
    obtain ⟨hd, hr⟩ := (Bool.and_eq_true _ _).mp hwf
    simp [exec, execMovDS, getR_of_isRegisterIndex s hr, setR_of_isRegisterIndex s _ hd, effect]
  case movDM d => simp [exec, execMovDM, setR_of_isRegisterIndex s _ hwf, effect]
  case movMS r => simp [exec, execMovMS, getR_of_isRegisterIndex s hwf, effect]
  case mviD d imm => simp [exec, execMviD, setR_of_isRegisterIndex s _ hwf, effect]
  case inrD d => simp [exec, execInrD, getR_of_isRegisterIndex s hwf, setR_of_isRegisterIndex _ _ hwf, effect]
  case dcrD d => simp [exec, execDcrD, getR_of_isRegisterIndex s hwf, setR_of_isRegisterIndex _ _ hwf, effect]
  case inrM | dcrM => simp [exec, execInrM, execDcrM, effect]
  case mviM | sta | lda | shld | lhld | xthl =>
    simp [exec, execMviM, execSta, execLda, execShld, execLhld, execXthl, effect]
  case lxi p imm16 => simp [exec, execLxi, setRP_eq_withPair s _ (of_decide_eq_true hwf), effect]
  case inx p | dcx p =>
    have hp := of_decide_eq_true hwf
    simp [exec, execInx, execDcx, getRP_eq_pairAt s hp, setRP_eq_withPair s _ hp, effect]
  case dad p => simp [exec, execDad, getRP_eq_pairAt s (of_decide_eq_true hwf), effect]
  case ldax p | stax p =>
    have hp : p < 2 := of_decide_eq_true hwf
    simp [exec, execLdax, execStax, getRP_eq_pairAt s (hp.trans (by decide)), effect]
  case pushRp p =>
    have hp : p < 3 := of_decide_eq_true hwf
    simp [exec, execPushRp, pushPair, getRPpsw, hp.ne, getRP_eq_pairAt s (hp.trans (by decide)), effect, State.afterPush]
  case popRp p =>
    have hp : p < 3 := of_decide_eq_true hwf
    simp [exec, execPopRp, popPair, setRPpsw, hp.ne, setRP_eq_withPair _ _ (hp.trans (by decide)), effect]
  case pushPsw | popPsw =>
    simp [exec, execPushPsw, execPopPsw, pushPair, popPair, getRPpsw, setRPpsw, effect, State.afterPush]
  case call | ret | rst =>
    simp [exec, execCall, execRet, execRst, branch, takeBranch, effect, State.afterCall, State.afterReturn]
  case jccc c _ | cccc c _ | rccc c =>
    have hc := condHolds_eq_conditionTrue s.flags (of_decide_eq_true hwf)
    simp only [exec, execJccc, execCccc, execRccc, branch_cond _ s hc, effect]
    split <;> simp [takeBranch, State.afterCall, State.afterReturn]
  all_goals rfl

/-- What an instruction that gave a next state did: its effect. -/
theorem eq_effect_of_exec {i : Instr} {s t : State} (hwf : i.wellFormed = true) (h : exec i s = .next t) :
    t = effect i s := by
  by_cases hi : ∃ op, i = .unknown op
  · obtain ⟨op, rfl⟩ := hi
    cases h
  · rw [exec_eq_effect hwf (not_exists.1 hi)] at h
    cases h
    rfl

end Sys2Proof.Machine
end

section
/-!
What each instruction leaves unchanged: registers, flags and control state. Where an instruction has no part in a piece of the
state, its effect unfolds to that piece as it was.
-/
namespace Sys2Proof.Machine

/-! Registers (R32 to R35). -/

theorem Regs.get_set_of_not_mem {n m : RegName} (r : Regs) (v : Byte) (h : m ∉ [n]) : (r.set n v).get m = r.get m := by
  rw [Regs.get_set, if_neg (mt List.mem_singleton.mpr h)]

theorem Regs.get_set_set_of_not_mem {n n' m : RegName} (r : Regs) (v v' : Byte) (h : m ∉ [n, n']) :
    ((r.set n v).set n' v').get m = r.get m := by
  obtain ⟨hn, hn'⟩ := not_or.mp (mt List.mem_pair.mpr h)
  rw [Regs.get_set, if_neg hn', Regs.get_set, if_neg hn]

/-- A pair write touches registers and `sp` alone. -/
theorem withPair_eq (s : State) (p : Nat) (v : Word) :
    withPair s p v = { s with regs := (withPair s p v).regs, sp := (withPair s p v).sp } := by
  unfold withPair
  split <;> rfl

@[simp] theorem withPair_pc (s : State) (p : Nat) (v : Word) : (withPair s p v).pc = s.pc := by
  rw [withPair_eq]

@[simp] theorem withPair_flags (s : State) (p : Nat) (v : Word) : (withPair s p v).flags = s.flags := by
  rw [withPair_eq]

@[simp] theorem withPair_mem (s : State) (p : Nat) (v : Word) : (withPair s p v).mem = s.mem := by
  rw [withPair_eq]

theorem withPair_sp {p : Nat} (s : State) (v : Word) (h : p < 3) : (withPair s p v).sp = s.sp := by
  interval_cases p <;> rfl

/-- A pair write leaves every register outside the pair, as `destRegs` lists it. -/
theorem withPair_regs_get {p : Nat} {n : RegName} (s : State) (v : Word) (h : n ∉ destRegs (.inx p)) :
    (withPair s p v).regs.get n = s.regs.get n := by
  match p with
  | 0 | 1 | 2 => exact Regs.get_set_set_of_not_mem s.regs (hi8 v) (lo8 v) h
  | _ + 3 => rfl

/-- OUT touches the peripheral alone (R301, R335). -/
theorem effect_outPort_eq (port : Byte) (s : State) : effect (.outPort port) s = { s with
    latches := (effect (.outPort port) s).latches
    shreg := (effect (.outPort port) s).shreg
    shamt := (effect (.outPort port) s).shamt } := by
  simp only [effect]
  split
  · rfl
  · split <;> rfl

theorem effect_outPort_of_ne {port : Byte} (s : State) (h2 : port ≠ 2) (h4 : port ≠ 4) :
    effect (.outPort port) s = s :=
  (if_neg h2).trans (if_neg h4)

theorem effect_regs_get {i : Instr} {n : RegName} (s : State) (h : n ∉ destRegs i) :
    (effect i s).regs.get n = s.regs.get n := by
  cases i
  case movDS | movDM | mviD | inrD | dcrD | addS | addM | adi | adcS | adcM | aci | subS | subM | sui | sbbS | sbbM | sbi
      | anaS | anaM | ani | xraS | xraM | xri | oraS | oraM | ori | rlc | rrc | ral | rar | cma | ldax | lda | inPort
      | popPsw => exact Regs.get_set_of_not_mem _ _ h
  case lxi | inx | dcx | popRp => exact withPair_regs_get _ _ h
  case dad | lhld | xthl => exact Regs.get_set_set_of_not_mem _ _ _ h
  case xchg =>
    obtain ⟨hde, hhl⟩ : n ∉ [RegName.d, .e] ∧ n ∉ [RegName.h, .l] := not_or.mp (mt List.mem_append.mpr h)
    exact (Regs.get_set_set_of_not_mem _ _ _ hhl).trans (Regs.get_set_set_of_not_mem _ _ _ hde)
  case jccc | cccc | rccc =>
    simp only [effect]
    split <;> rfl
  case outPort => rw [effect_outPort_eq]
  all_goals rfl

/-- Settles O52: `exec` gives the effect, and the effect writes the destinations alone. -/
theorem registerFrame : Obligations.RegisterFrame := by
  intro i s t hwf h n hn
  rw [eq_effect_of_exec hwf h]
  exact effect_regs_get s hn

/-! Flags (R38). -/

theorem effect_flags_of_none {i : Instr} (s : State) (h : flagClass i = .none) : (effect i s).flags = s.flags := by
  cases i
  case lxi | inx | dcx | popRp => simp [effect]
  case jccc | cccc | rccc =>
    simp only [effect]
    split <;> rfl
  case outPort => rw [effect_outPort_eq]
  all_goals cases h <;> rfl

theorem effect_flags_of_carry {i : Instr} (s : State) (h : flagClass i = .carry) :
    { (effect i s).flags with cy := s.flags.cy } = s.flags := by
  cases i <;> cases h <;> rfl

theorem effect_flags_of_allButAc {i : Instr} (s : State) (h : flagClass i = .allButAc) :
    (effect i s).flags.ac = s.flags.ac := by
  cases i <;> cases h <;> rfl

/-- Settles O53: the effect keeps to the row of R38 its instruction is in. -/
theorem flagFrame : Obligations.FlagFrame := by
  intro i s t hwf h
  rw [eq_effect_of_exec hwf h]
  exact ⟨effect_flags_of_none s, effect_flags_of_carry s, effect_flags_of_allButAc s⟩

/-! Control state (R36, R41, R42, R43, R45, R142). -/

theorem effect_sp {i : Instr} (s : State) (hwf : i.wellFormed = true) (h : writesSp i = false) :
    (effect i s).sp = s.sp := by
  cases i
  case lxi p _ | inx p | dcx p =>
    have hp : p < 4 := of_decide_eq_true hwf
    have hp3 : p ≠ 3 := ne_of_beq_false h
    exact withPair_sp _ _ (by omega)
  case jccc =>
    simp only [effect]
    split <;> rfl
  case outPort => rw [effect_outPort_eq]
  all_goals cases h <;> rfl

theorem effect_pc {i : Instr} (s : State) (h : isTransfer i = false) : (effect i s).pc = s.pc := by
  cases i
  case lxi | inx | dcx | popRp => simp [effect]
  case outPort => rw [effect_outPort_eq]
  all_goals cases h <;> rfl

/-- The pieces of state that only EI, DI, HLT, OUT 2 and OUT 4 write, from the state `s` before instruction `i` to `t`. -/
structure ControlFrame (i : Instr) (s t : State) : Prop where
  inte : i ≠ .ei → i ≠ .di → t.inte = s.inte
  latches : i ≠ .outPort 2 → i ≠ .outPort 4 → t.latches = s.latches
  shreg : i ≠ .outPort 4 → t.shreg = s.shreg
  shamt : i ≠ .outPort 2 → t.shamt = s.shamt
  status : i ≠ .hlt → t.status = s.status

/-- An instruction that writes none of these pieces. -/
theorem ControlFrame.of_eq (i : Instr) {s t : State} (h : t = { s with
    regs := t.regs, sp := t.sp, pc := t.pc, flags := t.flags, mem := t.mem }) : ControlFrame i s t := by
  rw [h]
  exact ⟨fun _ _ => rfl, fun _ _ => rfl, fun _ => rfl, fun _ => rfl, fun _ => rfl⟩

theorem effect_controlFrame (i : Instr) (s : State) : ControlFrame i s (effect i s) := by
  cases i
  case ei => exact ⟨absurd rfl, fun _ _ => rfl, fun _ => rfl, fun _ => rfl, fun _ => rfl⟩
  case di => exact ⟨fun _ => absurd rfl, fun _ _ => rfl, fun _ => rfl, fun _ => rfl, fun _ => rfl⟩
  case hlt => exact ⟨fun _ _ => rfl, fun _ _ => rfl, fun _ => rfl, fun _ => rfl, absurd rfl⟩
  case outPort port =>
    by_cases h2 : port = 2
    · subst h2
      exact ⟨fun _ _ => rfl, absurd rfl, fun _ => rfl, absurd rfl, fun _ => rfl⟩
    · by_cases h4 : port = 4
      · subst h4
        exact ⟨fun _ _ => rfl, fun _ => absurd rfl, absurd rfl, fun _ => rfl, fun _ => rfl⟩
      · rw [effect_outPort_of_ne s h2 h4]
        exact .of_eq _ rfl
  case lxi | inx | dcx | popRp =>
    rw [effect, withPair_eq]
    exact .of_eq _ rfl
  case jccc | cccc | rccc =>
    simp only [effect]
    split <;> exact .of_eq _ rfl
  all_goals exact .of_eq _ rfl

/-- Settles O55: each piece of control state is left by the effects that have no part in it. -/
theorem controlStateFrame : Obligations.ControlStateFrame := by
  intro i s t hwf h
  rw [eq_effect_of_exec hwf h]
  have ⟨inte, latches, shreg, shamt, status⟩ := effect_controlFrame i s
  exact ⟨effect_sp s hwf, effect_pc s, inte, fun h2 h4 => ⟨latches h2 h4, shreg h4, shamt h2⟩, shreg, shamt, status⟩

end Sys2Proof.Machine
end

section
/-!
Rules of the whole machine: what any step keeps, from the effect of the instruction at `pc`.
-/
namespace Sys2Proof.Machine

/-- What a step that gives a next state did: the bytes at `pc` are the encoding of a well-formed instruction, and its effect was
taken with `pc` past them. -/
theorem step_next_effect {s t : State} (h : step s = .next t) :
    ∃ i rest, i.wellFormed = true ∧ [s.byteAt s.pc, s.byteAt (s.pc + 1), s.byteAt (s.pc + 2)] = encode i ++ rest ∧
      t = effect i (s.setPc (s.pc + BitVec.ofNat 16 i.length)) := by
  obtain ⟨-, i, rest, hdecode, hexec⟩ := step_next_cases h
  obtain ⟨hwf, hbytes⟩ := decode_ok_inv hdecode
  exact ⟨i, rest, hwf, hbytes, eq_effect_of_exec hwf hexec⟩

/-- Settles O8: `step` looks at the status first. -/
theorem stepNeedsRunning : Obligations.StepNeedsRunning := by
  intro s h
  unfold step
  split
  · next hrun => exact absurd hrun h
  · rfl

/-! AC, `inte` and the latches (R39, R41, R43). -/

theorem effect_ac {i : Instr} (s : State) (h : i ≠ .popPsw) : (effect i s).flags.ac = s.flags.ac := by
  cases hc : flagClass i
  case none => rw [effect_flags_of_none s hc]
  case carry => exact (congrArg Flags.ac (effect_flags_of_carry s hc) :)
  case allButAc => exact effect_flags_of_allButAc s hc
  case all =>
    cases i <;> cases hc
    exact absurd rfl h

/-- Settles O57: only the effect of POP PSW writes AC, and POP PSW is encoded by 0xF1 alone. -/
theorem auxiliaryCarryOnlyByPopPsw : Obligations.AuxiliaryCarryOnlyByPopPsw := by
  intro s t h hac
  obtain ⟨i, rest, -, hbytes, rfl⟩ := step_next_effect h
  by_cases hi : i = .popPsw
  · subst hi
    exact (List.cons.inj hbytes).1
  · exact absurd (effect_ac _ hi) hac

/-- Settles O58: only the effects of EI (0xFB) and DI (0xF3) write `inte`. -/
theorem interruptEnableOnlyByEiDi : Obligations.InterruptEnableOnlyByEiDi := by
  intro s t h hinte
  obtain ⟨i, rest, -, hbytes, rfl⟩ := step_next_effect h
  by_cases hei : i = .ei
  · subst hei
    exact .inl ⟨(List.cons.inj hbytes).1, rfl⟩
  · by_cases hdi : i = .di
    · subst hdi
      exact .inr ⟨(List.cons.inj hbytes).1, rfl⟩
    · exact absurd ((effect_controlFrame i _).inte hei hdi) hinte

/-- The peripheral writes the result latch alone (R338). -/
theorem shiftLatch_latch_of_ne {q : Byte} (s : State) (h : q ≠ shiftResultPort) : (shiftLatch s).latch q = s.latch q := by
  rw [shiftLatch, State.latch_setLatch, if_neg h]

/-- The result latch of the peripheral holds its visible result (R338). -/
theorem shiftLatch_latch_result (s : State) :
    (shiftLatch s).latch shiftResultPort = shiftExtract (shiftLatch s).shreg (shiftLatch s).shamt := by
  rw [shiftLatch, State.latch_setLatch, if_pos rfl]
  rfl

/-- OUT changes no latch but the result latch, and that only at ports 2 and 4. -/
theorem effect_latch_ne {i : Instr} {s : State} {q : Byte} (h : (effect i s).latch q ≠ s.latch q) :
    q = shiftResultPort ∧ (i = .outPort 2 ∨ i = .outPort 4) := by
  by_cases h2 : i = .outPort 2
  · subst h2
    exact ⟨by_contra fun hq => h (shiftLatch_latch_of_ne _ hq), .inl rfl⟩
  · by_cases h4 : i = .outPort 4
    · subst h4
      exact ⟨by_contra fun hq => h (shiftLatch_latch_of_ne _ hq), .inr rfl⟩
    · exact absurd (congrArg (cellRead · q.toNat) ((effect_controlFrame i s).latches h2 h4)) h

/-- Settles O59: only the effects of OUT 2 and OUT 4 (0xD3 and the port) write a latch, and only the result latch. -/
theorem latchesOnlyByShifter : Obligations.LatchesOnlyByShifter := by
  intro s t q h hq
  obtain ⟨i, rest, -, hbytes, rfl⟩ := step_next_effect h
  obtain ⟨hq3, rfl | rfl⟩ := effect_latch_ne hq
  · obtain ⟨hop, hoperands⟩ := List.cons.inj hbytes
    exact ⟨hq3, hop, .inl (List.cons.inj hoperands).1⟩
  · obtain ⟨hop, hoperands⟩ := List.cons.inj hbytes
    exact ⟨hq3, hop, .inr (List.cons.inj hoperands).1⟩

end Sys2Proof.Machine
end

section
/-!
Reset and the invariant: the state reset leaves, and the invariant as a law of every effect and so of every step.
-/
namespace Sys2Proof.Machine

/-! Reset (R47, R370, R372). -/

/-- A byte after bytes were placed from `a` on, counted modulo 2^16: the one placed there, or the one that was there. -/
theorem byteAt_placeBytes {bytes : List Byte} (s : State) (a b : Word) (h : bytes.length ≤ Config.memSize) :
    (placeBytes s a bytes).byteAt b = bytes.getD (b - a).toNat (s.byteAt b) := by
  induction bytes generalizing s a with
  | nil => rfl
  | cons v rest ih =>
    rw [List.length_cons, Config.memSize] at h
    rw [placeBytes, ih _ _ (by rw [Config.memSize]; omega), State.byteAt_storeByte]
    by_cases hb : b = a
    · subst hb
      have hlast : (b - (b + 1)).toNat = 65535 := by bv_omega
      rw [hlast, List.getD_eq_default _ _ (by omega), if_pos rfl, BitVec.sub_self]
      rfl
    · have hnext : (b - a).toNat = (b - (a + 1)).toNat + 1 := by bv_omega
      rw [hnext, List.getD_cons_succ, if_neg hb]

theorem byteAt_resetWith (image : List Byte) (a : Word) :
    (State.resetWith image).byteAt a = if a.toNat < 8192 then image.getD a.toNat 0 else 0 := by
  have hlen : (image.take 8192).length ≤ Config.memSize := (List.length_take_le _ _).trans (by decide)
  calc (State.resetWith image).byteAt a
    _ = (image.take 8192).getD (a - 0).toNat 0 := byteAt_placeBytes State.reset 0 a hlen
    _ = (image.take 8192).getD a.toNat 0 := by rw [sub_zero]
    _ = _ := by
      rw [List.getD_eq_getElem?_getD, List.getElem?_take]
      split <;> simp

/-- Settles O48: loading the image changes the memory of the reset state alone, and places its first 8192 bytes from address
0. -/
theorem resetValues : Obligations.ResetValues := by
  intro image
  have hbytes := byteAt_resetWith image
  have hreset : State.resetWith image = { State.reset with mem := (State.resetWith image).mem } := placeBytes_eq _ _ _
  generalize (State.resetWith image).mem = mem at hreset
  rw [hreset] at hbytes ⊢
  exact ⟨rfl, rfl, rfl, rfl, rfl, fun _ => rfl, rfl, rfl, rfl, hbytes⟩

/-- Settles O50: reset lists no memory and no latch, and every shift of a zero register is 0. -/
theorem resetMeetsInvariant : Obligations.ResetMeetsInvariant :=
  ⟨reset_mem_wf, reset_latches_wf, rfl, .inl rfl⟩

/-! The invariant. -/

theorem effect_mem_wf {s : State} (i : Instr) (h : Memory.wf s.mem) : Memory.wf (effect i s).mem := by
  cases i
  case movMS | mviM | stax | sta | inrM | dcrM => exact State.mem_wf_storeByte _ _ h
  case shld | pushRp | pushPsw | call | rst | xthl => exact State.mem_wf_storeWord _ _ h
  case cccc =>
    simp only [effect]
    split
    · exact State.mem_wf_storeWord _ _ h
    · exact h
  case jccc | rccc =>
    simp only [effect]
    split <;> exact h
  case lxi | inx | dcx | popRp => simpa [effect] using h
  case outPort =>
    rw [effect_outPort_eq]
    exact h
  all_goals exact h

/-- Every effect keeps the invariant. The peripheral's two ports renew the result latch; HLT's status is halted; every other
effect leaves latches, shifter and status. -/
theorem effect_inv {s : State} (i : Instr) (h : s.Inv) : (effect i s).Inv := by
  obtain ⟨hmem, hlatches, hresult, hstatus⟩ := h
  obtain ⟨-, latches, shreg, shamt, status⟩ := effect_controlFrame i s
  refine ⟨effect_mem_wf i hmem, ?_⟩
  by_cases h2 : i = .outPort 2
  · subst h2
    exact ⟨State.latches_wf_setLatch _ _ hlatches, shiftLatch_latch_result _, hstatus⟩
  by_cases h4 : i = .outPort 4
  · subst h4
    exact ⟨State.latches_wf_setLatch _ _ hlatches, shiftLatch_latch_result _, hstatus⟩
  rw [State.latch, latches h2 h4, shreg h4, shamt h2]
  refine ⟨hlatches, hresult, ?_⟩
  by_cases hhlt : i = .hlt
  · subst hhlt
    exact .inr rfl
  · rwa [status hhlt]

/-- Settles O49: a step is the effect of an instruction, taken with `pc` moved, which the invariant does not speak of. -/
theorem stepKeepsInvariant : Obligations.StepKeepsInvariant := by
  intro s t hs h
  obtain ⟨i, -, -, -, rfl⟩ := step_next_effect h
  exact effect_inv i hs

end Sys2Proof.Machine
end

section
/-!
Memory (R74, R76, R77): two-byte access, and the bytes an effect leaves.
-/
namespace Sys2Proof.Machine

/-! Stores leave every byte outside their site. -/

theorem State.byteAt_storeByte_of_not_inSite {s : State} {a b : Word} {v : Byte} (h : ¬ inSite b (some (a, 1))) :
    (s.storeByte a v).byteAt b = s.byteAt b := by
  rw [State.byteAt_storeByte, if_neg fun hb => h (.inl hb)]

theorem State.byteAt_storeWord_of_not_inSite {s : State} {a b v : Word} (h : ¬ inSite b (some (a, 2))) :
    (s.storeWord a v).byteAt b = s.byteAt b := by
  obtain ⟨hlo, hhi⟩ := not_or.mp h
  rw [State.byteAt_storeWord, if_neg fun hb => hhi ⟨rfl, hb⟩, if_neg hlo]

theorem State.byteAt_storeWord_low (s : State) (a v : Word) : (s.storeWord a v).byteAt a = lo8 v := by
  rw [State.byteAt_storeWord, if_neg (word_succ_ne a).symm, if_pos rfl]

theorem State.byteAt_storeWord_high (s : State) (a v : Word) : (s.storeWord a v).byteAt (a + 1) = hi8 v := by
  rw [State.byteAt_storeWord, if_pos rfl]

/-- Settles O41: at a word no check fires, so the write is `storeWord` and each read is of its bytes. -/
theorem twoByteAccess : Obligations.TwoByteAccess := by
  intro s a v
  refine ⟨s.storeWord a v, memWrite16_word s a v, ?_, ?_, ?_, fun b hlo hhi => ?_, memRead16_word s a⟩
  · rw [memRead16_word, State.wordAt_storeWord]
  · rw [memRead8_word, State.byteAt_storeWord_low]
  · rw [memRead8_word, State.byteAt_storeWord_high]
  · have hsite : ¬ inSite b (some (a, 2)) := not_or.mpr ⟨hlo, fun ⟨_, hb⟩ => hhi hb⟩
    rw [memRead8_word, memRead8_word, State.byteAt_storeWord_of_not_inSite hsite]

/-! The store site of an instruction, where it depends on an operand. -/

theorem storeSite_stax {p : Nat} (s : State) (h : p < 2) : storeSite (.stax p) s = some (pairAt s p, 1) := by
  interval_cases p <;> rfl

theorem storeSite_cccc_taken {c : Nat} (s : State) (addr : Word) (hc : c < 8) (h : conditionTrue s.flags c = true) :
    storeSite (.cccc c addr) s = some (s.sp - 2, 2) :=
  if_pos (by rw [condHolds_eq_conditionTrue s.flags hc, h])

/-- An effect writes its instruction's store site alone. -/
theorem effect_byteAt {i : Instr} {s : State} {a : Word} (hwf : i.wellFormed = true)
    (h : ¬ inSite a (storeSite i s)) : (effect i s).byteAt a = s.byteAt a := by
  cases i
  case movMS | mviM | sta | inrM | dcrM => exact State.byteAt_storeByte_of_not_inSite h
  case stax =>
    rw [storeSite_stax s (of_decide_eq_true hwf)] at h
    exact State.byteAt_storeByte_of_not_inSite h
  case shld | xthl | pushRp | pushPsw | call | rst => exact State.byteAt_storeWord_of_not_inSite h
  case cccc =>
    simp only [effect]
    split
    · next htaken =>
      rw [storeSite_cccc_taken s _ (of_decide_eq_true hwf) htaken] at h
      exact State.byteAt_storeWord_of_not_inSite h
    · rfl
  case jccc | rccc =>
    simp only [effect]
    split <;> rfl
  case lxi | inx | dcx | popRp => exact State.byteAt_of_mem (withPair_mem _ _ _) a
  case outPort =>
    rw [effect_outPort_eq]
    rfl
  all_goals rfl

/-- Settles O54: `exec` gives the effect, and the effect writes the store site alone. -/
theorem memoryFrame : Obligations.MemoryFrame := by
  intro i s t hwf h a ha
  rw [eq_effect_of_exec hwf h]
  exact effect_byteAt hwf ha

end Sys2Proof.Machine
end

section
/-!
The decoder and the encoder are inverse: a well-formed instruction is assembled from the bytes of its encoding, and the decoder
takes exactly those bytes (R100 to R106).
-/
namespace Sys2Proof

/-! Operand bytes: an opcode's instruction does not use the ones past its length. -/

theorem assemble_of_operandCount_zero {op : Byte} (b2 b3 : Byte) (h : (classify op).operandCount = 0) :
    assemble op b2 b3 = assemble op 0 0 := by
  unfold assemble
  generalize classify op = form at h
  cases form <;> cases h <;> rfl

theorem assemble_of_operandCount_one {op : Byte} (b2 b3 : Byte) (h : (classify op).operandCount = 1) :
    assemble op b2 b3 = assemble op b2 0 := by
  unfold assemble
  generalize classify op = form at h
  cases form <;> cases h <;> rfl

/-- The decoder takes the operand bytes the opcode needs, assembles the instruction from them and leaves the rest. -/
theorem decode_opcode_operands (op b2 b3 : Byte) (rest : List Byte) :
    decode (op :: [b2, b3].take (classify op).operandCount ++ rest) = .ok (assemble op b2 b3, rest) := by
  rcases Machine.operandCount_cases (classify op) with hc | hc | hc
  · simp [decode, hc, assemble_of_operandCount_zero b2 b3 hc]
  · simp [decode, hc, assemble_of_operandCount_one b2 b3 hc]
  · simp [decode, hc]

/-! Opcodes: the row and the field the decoder finds where an instruction has a field and operand bytes, and the unknown ones. -/

theorem registerIndex_cases {r : Nat} (h : isRegisterIndex r = true) :
    r = 0 ∨ r = 1 ∨ r = 2 ∨ r = 3 ∨ r = 4 ∨ r = 5 ∨ r = 7 := by
  have ⟨h8, h6⟩ := (Machine.isRegisterIndex_iff r).1 h
  omega

theorem classify_jccc {c : Nat} (h : c < 8) :
    classify (BitVec.ofNat 8 (0xC2 + 8 * c)) = .jccc ∧ (field53 (BitVec.ofNat 8 (0xC2 + 8 * c))).toNat = c := by
  interval_cases c <;> decide

theorem classify_cccc {c : Nat} (h : c < 8) :
    classify (BitVec.ofNat 8 (0xC4 + 8 * c)) = .cccc ∧ (field53 (BitVec.ofNat 8 (0xC4 + 8 * c))).toNat = c := by
  interval_cases c <;> decide

theorem classify_lxi {p : Nat} (h : p < 4) :
    classify (BitVec.ofNat 8 (0x01 + 16 * p)) = .lxi ∧ (field54 (BitVec.ofNat 8 (0x01 + 16 * p))).toNat = p := by
  interval_cases p <;> decide

theorem classify_mvi {d : Nat} (h : d < 8) :
    classify (BitVec.ofNat 8 (0x06 + 8 * d)) = .mvi ∧ (field53 (BitVec.ofNat 8 (0x06 + 8 * d))).toNat = d := by
  interval_cases d <;> decide

/-- R110: the opcodes that no row of the table matches. -/
theorem classify_eq_unknown_iff : ∀ op : Byte, classify op = .unknown ↔ op ∈ unknownOpcodes := by
  decide +kernel

theorem assemble_of_unknown {op : Byte} (b2 b3 : Byte) (h : op ∈ unknownOpcodes) : assemble op b2 b3 = .unknown op := by
  rw [assemble, (classify_eq_unknown_iff op).2 h]

/-! Instructions. -/

/-- The instruction assembled from the bytes of an encoding. -/
def reassemble (i : Instr) : Instr :=
  assemble ((encode i).getD 0 0) ((encode i).getD 1 0) ((encode i).getD 2 0)

/-- The encoder's opcode and operand bytes assemble to the instruction they encode, over every value of its fields. -/
theorem reassemble_eq {i : Instr} (hwf : i.wellFormed = true) : reassemble i = i := by
  cases i
  case movDS d s =>
    obtain ⟨hd, hs⟩ := (Bool.and_eq_true _ _).mp hwf
    rcases registerIndex_cases hd with rfl | rfl | rfl | rfl | rfl | rfl | rfl <;>
      rcases registerIndex_cases hs with rfl | rfl | rfl | rfl | rfl | rfl | rfl <;> rfl
  case movDM r | movMS r | addS r | adcS r | subS r | sbbS r | anaS r | xraS r | oraS r | cmpS r | inrD r | dcrD r =>
    rcases registerIndex_cases hwf with rfl | rfl | rfl | rfl | rfl | rfl | rfl <;> rfl
  case ldax p | stax p | pushRp p | popRp p | inx p | dcx p | dad p =>
    have hp := of_decide_eq_true hwf
    interval_cases p <;> rfl
  case rccc c =>
    have hc : c < 8 := of_decide_eq_true hwf
    interval_cases c <;> rfl
  case rst n =>
    revert n
    decide
  case jccc c addr =>
    obtain ⟨hrow, hfield⟩ := classify_jccc (of_decide_eq_true hwf)
    simp [reassemble, encode, bytesF3, assemble, hrow, hfield]
  case cccc c addr =>
    obtain ⟨hrow, hfield⟩ := classify_cccc (of_decide_eq_true hwf)
    simp [reassemble, encode, bytesF3, assemble, hrow, hfield]
  case lxi p imm16 =>
    obtain ⟨hrow, hfield⟩ := classify_lxi (of_decide_eq_true hwf)
    simp [reassemble, encode, bytesF3, assemble, hrow, hfield]
  case mviD d imm =>
    have ⟨h8, h6⟩ := (Machine.isRegisterIndex_iff d).1 hwf
    obtain ⟨hrow, hfield⟩ := classify_mvi h8
    simp [reassemble, encode, bytesF2, assemble, hrow, hfield, h6]
  case jmp | call | shld | lhld | sta | lda =>
    simp [reassemble, encode, bytesF3, assemble, classify, firstMatch, exactRows, upperRows, lowerRows,
      assembleDirect, field43]
  case inPort | outPort | adi | aci | sui | sbi | ani | xri | ori | cpi | mviM =>
    simp [reassemble, encode, bytesF2, assemble, classify, firstMatch, exactRows, upperRows, lowerRows,
      assembleAluImm, field53]
  case unknown op => exact assemble_of_unknown _ _ (List.contains_iff_mem.1 hwf)
  all_goals rfl

/-- Settles O1: the encoding of an instruction reassembled is its opcode and the operand bytes the opcode needs. -/
theorem decodeOfEncode : Obligations.DecodeOfEncode := by
  intro i rest hwf
  rw [← reassemble_eq hwf, reassemble, encode_assemble, decode_opcode_operands]

/-- Settles O2: what a decode that succeeds has read. -/
theorem encodeOfDecode : Obligations.EncodeOfDecode :=
  fun _ _ _ => decode_ok_inv

/-- No unknown opcode is one of the eight restarts. -/
theorem not_isRestartOpcode_of_unknown : ∀ op ∈ unknownOpcodes, Machine.isRestartOpcode op = false := by
  decide

/-- Settles O4: the table's last row is left the 13 listed opcodes, and none of them is a restart. -/
theorem unknownOpcodesAreThirteen : Obligations.UnknownOpcodesAreThirteen := by
  intro op listed
  refine ⟨classify_eq_unknown_iff op, fun h => ⟨?_, fun _ => rfl, fun s hrun => ?_⟩⟩
  · have hdecode := decode_opcode_operands op 0 0 []
    rwa [(classify_eq_unknown_iff op).2 h, assemble_of_unknown 0 0 h] at hdecode
  · simp [Machine.inject, hrun, not_isRestartOpcode_of_unknown op h]

/-- Settles O5: each word is read by its row of the table. -/
theorem specWordsDecode : Obligations.SpecWordsDecode := by
  and_intros <;> rfl

end Sys2Proof
end

section
/-!
The opcode map: the type tags of the 256 opcodes in order, eight to an octet, and how often each occurs (R106, R113).
-/
namespace Sys2Proof

/-- Eight opcodes from 0x00 to 0x3F, by the tags that differ between such octets. -/
def lowOctet (z0 z1 z2 z3 z7 : TypeTag) : List TypeTag :=
  [z0, z1, z2, z3, .incrementRegister, .decrementRegister, .moveImmediate, z7]

/-- Eight opcodes from 0xC0 to 0xFF, by the tags that differ between such octets. -/
def highOctet (z1 z3 z5 : TypeTag) : List TypeTag :=
  [.branch, z1, .branch, z3, .branch, z5, .immediateAlu, .restart]

def opcodeMap : List TypeTag :=
  lowOctet .miscellaneous .loadPairImmediate .storeIndirect .incrementPair .rotate ++
  lowOctet .unknown .doubleAdd .loadIndirect .decrementPair .rotate ++
  lowOctet .unknown .loadPairImmediate .storeIndirect .incrementPair .rotate ++
  lowOctet .unknown .doubleAdd .loadIndirect .decrementPair .rotate ++
  lowOctet .unknown .loadPairImmediate .directAddress .incrementPair .unknown ++
  lowOctet .unknown .doubleAdd .directAddress .decrementPair .miscellaneous ++
  lowOctet .unknown .loadPairImmediate .directAddress .incrementPair .miscellaneous ++
  lowOctet .unknown .doubleAdd .directAddress .decrementPair .miscellaneous ++
  List.replicate 54 .registerMove ++ [.miscellaneous] ++ List.replicate 9 .registerMove ++
  List.replicate 64 .registerAlu ++
  highOctet .stackPop .branch .stackPush ++
  highOctet .branch .unknown .branch ++
  highOctet .stackPop .miscellaneous .stackPush ++
  highOctet .unknown .miscellaneous .unknown ++
  highOctet .stackPop .miscellaneous .stackPush ++
  highOctet .miscellaneous .miscellaneous .unknown ++
  highOctet .stackPop .miscellaneous .stackPush ++
  highOctet .miscellaneous .miscellaneous .unknown

theorem map_tag_classify_eq_opcodeMap :
    (List.range 256).map (fun n => (classify (BitVec.ofNat 8 n)).tag) = opcodeMap := by
  decide +kernel

/-- Settles O3: the counts are read off the opcode map. -/
theorem opcodeTypeCounts : Obligations.OpcodeTypeCounts := by
  unfold Obligations.OpcodeTypeCounts
  intro count
  have hcount (tag : TypeTag) : count tag = opcodeMap.countP (fun t => decide (t = tag)) := by
    rw [← map_tag_classify_eq_opcodeMap, List.countP_map]
    rfl
  simp only [hcount]
  decide +kernel

end Sys2Proof
end

section
/-!
Operand access index by index (R143 to R146): every index in range reads and writes what the spec's tables list for it.
-/
namespace Sys2Proof.Machine

/-- Settles O14: an index in range names its register or is M, and one of 8 or more fails the check of R322. -/
theorem registerIndexAccess : Obligations.RegisterIndexAccess := by
  intro s v
  have reg {r : Nat} (h : isRegisterIndex r = true) :
      getR s r = .ok (s.regs.get (regName r)) ∧ setR s r v = .ok (s.setReg (regName r) v) :=
    ⟨getR_of_isRegisterIndex s h, setR_of_isRegisterIndex s v h⟩
  exact ⟨reg (r := 0) rfl, reg (r := 1) rfl, reg (r := 2) rfl, reg (r := 3) rfl, reg (r := 4) rfl, reg (r := 5) rfl,
    ⟨rfl, rfl⟩, reg (r := 7) rfl, fun r h => ⟨getR_out s h, setR_out s v h⟩⟩

/-- At every index but 3 the pair access of PUSH and POP is the ordinary one (R145). -/
theorem getRPpsw_of_ne {p : Nat} (s : State) (h : p ≠ 3) : getRPpsw s p = getRP s p := if_neg h

theorem setRPpsw_of_ne {p : Nat} (s : State) (v : Word) (h : p ≠ 3) : setRPpsw s p v = setRP s p v := if_neg h

/-- Settles O15: the two accesses differ at index 3 alone. -/
theorem pairIndexAccess : Obligations.PairIndexAccess := by
  intro s v
  have pair (p : Nat) (h : p < 4) : getRP s p = .ok (pairAt s p) ∧ setRP s p v = .ok (withPair s p v) :=
    ⟨getRP_eq_pairAt s h, setRP_eq_withPair s v h⟩
  refine ⟨pair, fun p h => ?_, rfl, rfl⟩
  rw [getRPpsw_of_ne s h.ne, setRPpsw_of_ne s v h.ne]
  exact pair p (h.trans (by decide))

/-- Settles O16: each code is a value of the table `conditionTrue`. -/
theorem conditionCodes : Obligations.ConditionCodes := by
  intro f
  have code (c : Nat) (h : c < 8) : condHolds f c = .ok (conditionTrue f c) := condHolds_eq_conditionTrue f h
  exact ⟨code 0 (by decide), code 1 (by decide), code 2 (by decide), code 3 (by decide), code 4 (by decide),
    code 5 (by decide), code 6 (by decide), code 7 (by decide), code⟩

end Sys2Proof.Machine
end

section
/-!
The step runs the instruction whose bytes stand at `pc` (R140 to R142), given by its decoding or by its encoding.
-/
namespace Sys2Proof.Machine

/-- A running core's step is the fetch of the decoded instruction, then its meaning. -/
theorem step_of_decode {s : State} {i : Instr} {rest : List Byte} (hrun : s.status = .running)
    (h : decode [s.byteAt s.pc, s.byteAt (s.pc + 1), s.byteAt (s.pc + 2)] = .ok (i, rest)) :
    step s = exec i (s.setPc (s.pc + BitVec.ofNat 16 i.length)) := by
  rw [step, hrun, fetchInstr_eq_decode s h]

/-- Settles O6: the fetch reads the decoder's three bytes. -/
theorem stepRunsDecodedInstruction : Obligations.StepRunsDecodedInstruction :=
  fun _ _ _ => step_of_decode

theorem encode_length (i : Instr) : (encode i).length = i.length := by
  cases i <;> rfl

theorem encode_length_le_three {i : Instr} (hwf : i.wellFormed = true) : (encode i).length ≤ 3 := by
  rw [← reassemble_eq hwf, reassemble, encode_assemble, List.length_cons]
  exact Nat.succ_le_succ (List.length_take_le' _ _)

/-- Up to three bytes spelled at `pc` begin the three bytes there. -/
theorem isPrefix_of_spelledAtPc {s : State} {bytes : List Byte} (h : SpelledAtPc s bytes) (hlen : bytes.length ≤ 3) :
    bytes <+: [s.byteAt s.pc, s.byteAt (s.pc + 1), s.byteAt (s.pc + 2)] := by
  have hrange : List.range bytes.length <+: List.range 3 := by
    rw [← min_eq_left hlen, ← List.take_range]
    exact List.take_prefix _ _
  have hfetched := hrange.map (fun k => s.byteAt (s.pc + BitVec.ofNat 16 k))
  unfold SpelledAtPc at h
  rw [h] at hfetched
  simpa [List.range_succ] using hfetched

/-- Settles O7: the bytes at `pc` begin with the encoding, so they decode to the instruction. -/
theorem stepRunsEncodedInstruction : Obligations.StepRunsEncodedInstruction := by
  intro i s hwf hrun hspelled
  obtain ⟨rest, hbytes⟩ := isPrefix_of_spelledAtPc hspelled (encode_length_le_three hwf)
  rw [encode_length]
  apply step_of_decode hrun
  rw [← hbytes, decodeOfEncode i rest hwf]

/-- Settles O56: the fetch moves `pc` past the instruction, and the effect of one that is no transfer leaves it there. -/
theorem pcAfterStraightStep : Obligations.PcAfterStraightStep := by
  intro s t i rest hstep hdecode htransfer
  obtain ⟨hrun, -⟩ := step_next_cases hstep
  rw [step_of_decode hrun hdecode] at hstep
  rw [eq_effect_of_exec (decode_ok_inv hdecode).1 hstep, effect_pc _ htransfer, State.setPc_pc]

end Sys2Proof.Machine
end

section
/-!
The invariant of every reachable state (R149): reset with any image meets it, and every event keeps it, host actions included.
-/
namespace Sys2Proof.Machine

/-- Loading an image stores bytes and does nothing else. -/
theorem placeBytes_inv {s : State} (a : Word) (bytes : List Byte) (h : s.Inv) : (placeBytes s a bytes).Inv := by
  obtain ⟨hmem, hrest⟩ := h
  rw [placeBytes_eq]
  exact ⟨placeBytes_mem_wf hmem, hrest⟩

/-- What an injection that gave a next state did: nothing, or the effect of the injected instruction with `inte` cleared
(R331). -/
theorem inject_next_cases {op : Byte} {s t : State} (h : inject op s = .next t) :
    t = s ∨ t = effect (assemble op 0 0) (s.setInte false) := by
  unfold inject at h
  split at h
  · cases h
    exact .inl rfl
  · split at h
    · cases h
    · split at h
      · cases h
        exact .inl rfl
      · exact .inr (eq_effect_of_exec (assemble_wellFormed op 0 0) h)

/-- What a host write that gave a next state did: nothing, or the write of a latch that is the host's (R343, R346). -/
theorem hostWriteLatch_next_cases {port v : Byte} {s t : State} (h : hostWriteLatch port v s = .next t) :
    t = s ∨ port ∈ hostLatches ∧ t = s.setLatch port v := by
  unfold hostWriteLatch at h
  split at h
  · cases h
    exact .inl rfl
  · split at h
    · next hport =>
      cases h
      exact .inr ⟨List.contains_iff_mem.1 hport, rfl⟩
    · cases h

theorem inject_inv {op : Byte} {s t : State} (hs : s.Inv) (h : inject op s = .next t) : t.Inv := by
  rcases inject_next_cases h with rfl | rfl
  · exact hs
  · exact effect_inv _ hs

/-- The host's latches are not the result latch, so a host write leaves the shifter's result visible. -/
theorem hostWriteLatch_inv {port v : Byte} {s t : State} (hs : s.Inv) (h : hostWriteLatch port v s = .next t) :
    t.Inv := by
  rcases hostWriteLatch_next_cases h with rfl | ⟨hport, rfl⟩
  · exact hs
  · obtain ⟨hmem, hlatches, hresult, hstatus⟩ := hs
    have hne : shiftResultPort ≠ port := by
      rintro rfl
      exact absurd hport (by decide)
    refine ⟨hmem, State.latches_wf_setLatch port v hlatches, ?_, hstatus⟩
    rw [State.latch_setLatch, if_neg hne]
    exact hresult

theorem hostAct_inv {act : HostAction} {s t : State} (hs : s.Inv) (h : hostAct act s = .next t) : t.Inv := by
  cases act with
  | inject op => exact inject_inv hs h
  | refresh half => exact inject_inv hs h
  | writeLatch port v => exact hostWriteLatch_inv hs h
  | terminate =>
    cases h
    exact hs

theorem runEvent_inv {e : Event} {s t : State} (hs : s.Inv) (h : runEvent e s = .next t) : t.Inv := by
  cases e with
  | step => exact stepKeepsInvariant s t hs h
  | host act => exact hostAct_inv hs h

/-- Settles O51, by induction on the run. -/
theorem reachableStatesMeetInvariant : Obligations.ReachableStatesMeetInvariant := by
  intro s h
  induction h with
  | reset image => exact placeBytes_inv 0 _ resetMeetsInvariant
  | move e s t _ hmove hs => exact runEvent_inv hs hmove

end Sys2Proof.Machine
end

section
/-!
The ALU's arithmetic (R163 to R165): the model's operations give the results and flags the claims expect.
-/
namespace Sys2Proof.Machine

theorem lo8_toNat (v : Word) : (lo8 v).toNat = v.toNat % 256 := by
  simp [lo8, BitVec.extractLsb'_toNat]

theorem hi8_toNat (v : Word) : (hi8 v).toNat = v.toNat / 256 := by
  have := v.isLt
  rw [hi8, BitVec.extractLsb'_toNat, Nat.shiftRight_eq_div_pow]
  omega

/-- The flags after an operation: its carry, and `setZSP` of its result. -/
theorem Flags.setCy_setZSP (f : Flags) (carry : Bool) (res : Byte) :
    (f.setCy carry).setZSP res = resultFlags f res carry :=
  Flags.setZSP_eq_resultFlags (f.setCy carry) res

theorem add8_eq (f : Flags) (a b : Byte) (c : Bool) :
    add8 f a b c = (BitVec.ofNat 8 (a.toNat + b.toNat + c.toNat),
      resultFlags f (BitVec.ofNat 8 (a.toNat + b.toNat + c.toNat)) (decide (255 < a.toNat + b.toNat + c.toNat))) := by
  rw [add8, Flags.setCy_setZSP]

theorem logic8_eq (f : Flags) (res : Byte) : logic8 f res = (res, resultFlags f res false) := by
  rw [logic8, Flags.setCy_setZSP]

/-- The 16-bit difference of R164, before it wraps: a borrow adds 65536. -/
theorem wordDifference_toNat (a b : Byte) (c : Bool) :
    (a.zeroExtend 16 - b.zeroExtend 16 - (BitVec.ofBool c).zeroExtend 16).toNat =
      (65536 + a.toNat - (b.toNat + c.toNat)) % 65536 := by
  have hc : (BitVec.ofBool c).toNat = c.toNat := BitVec.toNat_ofBool c
  have := c.toNat_le
  simp only [BitVec.toNat_sub, BitVec.truncate_eq_setWidth, BitVec.toNat_setWidth, hc]
  omega

theorem lo8_wordDifference (a b : Byte) (c : Bool) :
    lo8 (a.zeroExtend 16 - b.zeroExtend 16 - (BitVec.ofBool c).zeroExtend 16) = a - b - BitVec.ofNat 8 c.toNat := by
  apply BitVec.eq_of_toNat_eq
  have := c.toNat_le
  rw [lo8_toNat, wordDifference_toNat, BitVec.toNat_sub, BitVec.toNat_sub, BitVec.toNat_ofNat]
  omega

/-- The high byte of the difference is not zero exactly when it wrapped, which is the borrow. -/
theorem hi8_wordDifference_ne_zero_iff (a b : Byte) (c : Bool) :
    hi8 (a.zeroExtend 16 - b.zeroExtend 16 - (BitVec.ofBool c).zeroExtend 16) ≠ 0 ↔ a.toNat < b.toNat + c.toNat := by
  have := c.toNat_le
  rw [ne_eq, ← BitVec.toNat_inj, hi8_toNat, wordDifference_toNat, show (0 : Byte).toNat = 0 from rfl]
  omega

theorem sub8_eq (f : Flags) (a b : Byte) (c : Bool) :
    sub8 f a b c = (a - b - BitVec.ofNat 8 c.toNat,
      resultFlags f (a - b - BitVec.ofNat 8 c.toNat) (decide (a.toNat < b.toNat + c.toNat))) := by
  rw [sub8, lo8_wordDifference, Flags.setCy_setZSP]
  simp only [hi8_wordDifference_ne_zero_iff]

/-! The states after an operation, as the claims expect them. -/

theorem accumulate_add8 (s : State) (v : Byte) (c : Bool) :
    s.accumulate (add8 s.flags s.regs.a v c) = sumState s v c := by
  rw [add8_eq]
  rfl

theorem accumulate_sub8 (s : State) (v : Byte) (c : Bool) :
    s.accumulate (sub8 s.flags s.regs.a v c) = differenceState s v c := by
  rw [sub8_eq]
  rfl

theorem accumulate_logic8 (s : State) (res : Byte) : s.accumulate (logic8 s.flags res) = logicState s res := by
  rw [logic8_eq]
  rfl

theorem aluCompare_aluSub (s : State) (v : Byte) :
    aluCompare aluSub s v = { s with flags := differenceFlags s v false } := by
  rw [aluCompare, aluSub, sub8_eq]
  rfl

end Sys2Proof.Machine
end

section
/-!
The ALU families (R166 to R193): each has three operand forms, and one operation on A and the operand byte for all three.
-/
namespace Sys2Proof.Machine

theorem regs_get_regName (s : State) : ∀ r : Nat, s.regs.get (regName r) = regAt s r
  | 0 | 1 | 2 | 3 | 4 | 5 | _ + 6 => rfl

/-- What `encode` and `exec` have for the three forms of one ALU operation; by default each equation is an arm of the
definition. -/
structure AluArms (regForm : Nat → Instr) (memForm : Instr) (immForm : Byte → Instr) (reg imm : Nat)
    (after : State → Byte → State) : Prop where
  encode_reg (r : Nat) : encode (regForm r) = bytesF1 (reg + r) := by intros; rfl
  encode_mem : encode memForm = bytesF1 (reg + 6) := by rfl
  encode_imm (v : Byte) : encode (immForm v) = bytesF2 imm v := by intros; rfl
  exec_reg (r : Nat) (s : State) : exec (regForm r) s = aluReg after r s := by intros; rfl
  exec_mem (s : State) : exec memForm s = aluMem after s := by intros; rfl
  exec_imm (v : Byte) (s : State) : exec (immForm v) s = .next (after s v) := by intros; rfl

/-- No operand form fails a check at an operand in range, so it is enough that the operation gives the expected state. -/
theorem AluArms.aluForms {regForm : Nat → Instr} {memForm : Instr} {immForm : Byte → Instr} {reg imm : Nat}
    (after : State → Byte → State) {expected : State → Byte → State}
    (arms : AluArms regForm memForm immForm reg imm after) (hafter : ∀ s v, after s v = expected s v) :
    AluForms regForm memForm immForm reg imm expected := by
  refine ⟨fun r h8 h6 => ⟨arms.encode_reg r, fun s => ?_⟩, ⟨arms.encode_mem, fun s => ?_⟩,
    fun v => ⟨arms.encode_imm v, fun s => ?_⟩⟩
  · rw [arms.exec_reg, aluReg_of_isRegisterIndex after s ((isRegisterIndex_iff r).2 ⟨h8, h6⟩), regs_get_regName, hafter]
  · rw [arms.exec_mem, aluMem_eq, hafter]
    rfl
  · rw [arms.exec_imm, hafter]

/-- Settles O17: ADD's carry in is 0 and ADC's is CY. -/
theorem addAndAdcResults : Obligations.AddAndAdcResults :=
  ⟨AluArms.aluForms (aluWrite aluAdd) {} fun s v => accumulate_add8 s v false,
    AluArms.aluForms (aluWrite aluAdc) {} fun s v => accumulate_add8 s v s.flags.cy⟩

/-- Settles O18: SUB's borrow in is 0 and SBB's is CY. -/
theorem subAndSbbResults : Obligations.SubAndSbbResults :=
  ⟨AluArms.aluForms (aluWrite aluSub) {} fun s v => accumulate_sub8 s v false,
    AluArms.aluForms (aluWrite aluSbb) {} fun s v => accumulate_sub8 s v s.flags.cy⟩

/-- Settles O19: the three operations differ in the result alone. -/
theorem logicalResults : Obligations.LogicalResults :=
  ⟨AluArms.aluForms (aluWrite aluAnd) {} fun s v => accumulate_logic8 s (s.regs.a &&& v),
    AluArms.aluForms (aluWrite aluXor) {} fun s v => accumulate_logic8 s (s.regs.a ^^^ v),
    AluArms.aluForms (aluWrite aluOr) {} fun s v => accumulate_logic8 s (s.regs.a ||| v)⟩

/-- Settles O20: a compare is SUB's difference with only the flags written. -/
theorem compareResults : Obligations.CompareResults :=
  AluArms.aluForms (aluCompare aluSub) {} aluCompare_aluSub

end Sys2Proof.Machine
end

section
/-!
The arithmetic of INR, DCR and the rotates (R200 to R211): the model's operations give the results and flags the claims expect.
-/
namespace Sys2Proof.Machine

/-! Increment and decrement: the ALU's sum and difference with 1. -/

theorem inc8_eq_add8 (f : Flags) (v : Byte) : inc8 f v = add8 f v 1 false := rfl

theorem dec8_eq_sub8 (f : Flags) (v : Byte) : dec8 f v = sub8 f v 1 false := by
  simp [dec8, sub8]

/-- The sum with 1 exceeds 255 exactly for 0xFF. -/
theorem inc8_eq (f : Flags) (v : Byte) : inc8 f v = (v + 1, resultFlags f (v + 1) (decide (v = 0xFF))) := by
  have hres : BitVec.ofNat 8 (v.toNat + (1 : Byte).toNat + false.toNat) = v + 1 := by bv_omega
  have hcy : 255 < v.toNat + (1 : Byte).toNat + false.toNat ↔ v = 0xFF := by
    simp only [Bool.toNat_false]
    bv_omega
  rw [inc8_eq_add8, add8_eq, hres, decide_eq_decide.2 hcy]

/-- Taking 1 borrows exactly from 0. -/
theorem dec8_eq (f : Flags) (v : Byte) : dec8 f v = (v - 1, resultFlags f (v - 1) (decide (v = 0))) := by
  have hres : v - 1 - BitVec.ofNat 8 false.toNat = v - 1 := BitVec.sub_zero _
  have hcy : v.toNat < (1 : Byte).toNat + false.toNat ↔ v = 0 := by
    simp only [Bool.toNat_false]
    bv_omega
  rw [dec8_eq_sub8, sub8_eq, hres, decide_eq_decide.2 hcy]

/-! Rotates: a shift by one place and the bit shifted in. -/

theorem getLsbD_zero_eq_decide (v : Byte) : v.getLsbD 0 = decide (v.toNat % 2 = 1) := by
  rw [BitVec.getLsbD, Nat.testBit_zero]

theorem zeroExtend_ofBool_toNat (c : Bool) : ((BitVec.ofBool c).zeroExtend 8).toNat = c.toNat := by
  cases c <;> rfl

theorem shiftLeft_or_bit (a : Byte) (c : Bool) :
    (a <<< 1) ||| (BitVec.ofBool c).zeroExtend 8 = BitVec.ofNat 8 (2 * a.toNat + c.toNat) := by
  apply BitVec.eq_of_toNat_eq
  have hc : c.toNat < 2 ^ 1 := c.toNat_lt
  have ha : (a <<< 1).toNat = (a.toNat % 128) <<< 1 := by
    rw [BitVec.toNat_shiftLeft, Nat.shiftLeft_eq, Nat.shiftLeft_eq]
    omega
  rw [BitVec.toNat_or, ha, zeroExtend_ofBool_toNat, ← Nat.shiftLeft_add_eq_or_of_lt hc, BitVec.toNat_ofNat,
    Nat.shiftLeft_eq]
  omega

theorem shiftRight_or_bit (a : Byte) (c : Bool) :
    (a >>> 1) ||| ((BitVec.ofBool c).zeroExtend 8 <<< 7) = BitVec.ofNat 8 (a.toNat / 2 + 128 * c.toNat) := by
  apply BitVec.eq_of_toNat_eq
  have hc := c.toNat_le
  have ha : a.toNat >>> 1 < 2 ^ 7 := by
    rw [Nat.shiftRight_eq_div_pow]
    omega
  have hbit : ((BitVec.ofBool c).zeroExtend 8 <<< 7).toNat = c.toNat <<< 7 := by
    rw [BitVec.toNat_shiftLeft, zeroExtend_ofBool_toNat, Nat.shiftLeft_eq]
    omega
  rw [BitVec.toNat_or, BitVec.toNat_ushiftRight, hbit, Nat.or_comm, ← Nat.shiftLeft_add_eq_or_of_lt ha,
    BitVec.toNat_ofNat, Nat.shiftLeft_eq, Nat.shiftRight_eq_div_pow]
  omega

/-- The bit that leaves at the top is what a shift by seven places leaves of the byte. -/
theorem zeroExtend_ofBool_bit_seven (a : Byte) : (BitVec.ofBool (a.getLsbD 7)).zeroExtend 8 = a >>> 7 := by
  apply BitVec.eq_of_toNat_eq
  rw [zeroExtend_ofBool_toNat, getLsbD_seven_eq_decide, BitVec.toNat_ushiftRight, Nat.shiftRight_eq_div_pow]
  by_cases h : 128 ≤ a.toNat
  · rw [decide_eq_true h, Bool.toNat_true]
    omega
  · rw [decide_eq_false h, Bool.toNat_false]
    omega

theorem zeroExtend_ofBool_bit_zero_shiftLeft (a : Byte) :
    (BitVec.ofBool (a.getLsbD 0)).zeroExtend 8 <<< 7 = a <<< 7 := by
  apply BitVec.eq_of_toNat_eq
  rw [BitVec.toNat_shiftLeft, zeroExtend_ofBool_toNat, BitVec.getLsbD, Nat.toNat_testBit, BitVec.toNat_shiftLeft,
    Nat.shiftLeft_eq, Nat.shiftLeft_eq]
  omega

theorem rotateLeft_eq (f : Flags) (a : Byte) :
    rotateLeft f a = (a.rotateLeft 1, f.setCy (decide (128 ≤ a.toNat))) := by
  rw [rotateLeft, zeroExtend_ofBool_bit_seven, getLsbD_seven_eq_decide, BitVec.rotateLeft_def]

theorem rotateRight_eq (f : Flags) (a : Byte) :
    rotateRight f a = (a.rotateRight 1, f.setCy (decide (a.toNat % 2 = 1))) := by
  rw [rotateRight, zeroExtend_ofBool_bit_zero_shiftLeft, getLsbD_zero_eq_decide, BitVec.rotateRight_def]

theorem rotateLeftCarry_eq (f : Flags) (a : Byte) :
    rotateLeftCarry f a = (BitVec.ofNat 8 (2 * a.toNat + f.cy.toNat), f.setCy (decide (128 ≤ a.toNat))) := by
  rw [rotateLeftCarry, shiftLeft_or_bit, getLsbD_seven_eq_decide]

theorem rotateRightCarry_eq (f : Flags) (a : Byte) :
    rotateRightCarry f a = (BitVec.ofNat 8 (a.toNat / 2 + 128 * f.cy.toNat), f.setCy (decide (a.toNat % 2 = 1))) := by
  rw [rotateRightCarry, shiftRight_or_bit, getLsbD_zero_eq_decide]

end Sys2Proof.Machine
end

section
/-!
Increment, decrement, double add, rotates, and the accumulator and carry instructions (R200 to R214): the effect of each is the
state its claim expects.
-/
namespace Sys2Proof.Machine

theorem setReg_regName (s : State) (v : Byte) : ∀ r : Nat, s.setReg (regName r) v = withReg s r v
  | 0 | 1 | 2 | 3 | 4 | 5 | _ + 6 => rfl

theorem setFlags_setReg_regName (s : State) (f : Flags) (r : Nat) (v : Byte) :
    (s.setFlags f).setReg (regName r) v = { withReg s r v with flags := f } := by
  rw [← setReg_regName]
  rfl

theorem effect_inrD (s : State) (d : Nat) : effect (.inrD d) s =
    { withReg s d (regAt s d + 1) with
      flags := resultFlags s.flags (regAt s d + 1) (decide (regAt s d = 0xFF)) } := by
  rw [effect, inc8_eq, regs_get_regName, setFlags_setReg_regName]

theorem effect_inrM (s : State) : effect .inrM s =
    { s.storeByte s.hl (s.byteAt s.hl + 1) with
      flags := resultFlags s.flags (s.byteAt s.hl + 1) (decide (s.byteAt s.hl = 0xFF)) } := by
  rw [effect, inc8_eq]
  rfl

theorem effect_dcrD (s : State) (d : Nat) : effect (.dcrD d) s =
    { withReg s d (regAt s d - 1) with
      flags := resultFlags s.flags (regAt s d - 1) (decide (regAt s d = 0)) } := by
  rw [effect, dec8_eq, regs_get_regName, setFlags_setReg_regName]

theorem effect_dcrM (s : State) : effect .dcrM s =
    { s.storeByte s.hl (s.byteAt s.hl - 1) with
      flags := resultFlags s.flags (s.byteAt s.hl - 1) (decide (s.byteAt s.hl = 0)) } := by
  rw [effect, dec8_eq]
  rfl

/-- Settles O21: INR is the ALU's sum with 1, on a register and on M. -/
theorem incrementResults : Obligations.IncrementResults := by
  refine ⟨fun d h8 h6 => ⟨rfl, fun s => ?_⟩, rfl, fun s => ?_⟩
  · rw [exec_eq_effect (i := .inrD d) ((isRegisterIndex_iff d).2 ⟨h8, h6⟩) nofun, effect_inrD]
  · rw [exec_eq_effect (i := .inrM) rfl nofun, effect_inrM]
    rfl

/-- Settles O22: DCR is the ALU's difference with 1, on a register and on M. -/
theorem decrementResults : Obligations.DecrementResults := by
  refine ⟨fun d h8 h6 => ⟨rfl, fun s => ?_⟩, rfl, fun s => ?_⟩
  · rw [exec_eq_effect (i := .dcrD d) ((isRegisterIndex_iff d).2 ⟨h8, h6⟩) nofun, effect_dcrD]
  · rw [exec_eq_effect (i := .dcrM) rfl nofun, effect_dcrM]
    rfl

/-- Settles O23: the effects are these pair writes, and a pair index in range fails no check. -/
theorem pairIncrementDecrementResults : Obligations.PairIncrementDecrementResults :=
  fun p hp => ⟨rfl, rfl, fun s =>
    ⟨exec_eq_effect (i := .inx p) (decide_eq_true hp) nofun s,
      exec_eq_effect (i := .dcx p) (decide_eq_true hp) nofun s⟩⟩

/-- Settles O24: DAD's effect is the write of `add16`'s sum to H:L, and of its carry. -/
theorem doubleAddResult : Obligations.DoubleAddResult :=
  fun p hp => ⟨rfl, fun s => exec_eq_effect (i := .dad p) (decide_eq_true hp) nofun s⟩

/-- Settles O25: each rotate writes its result to A, and its carry. -/
theorem rotateResults : Obligations.RotateResults := by
  refine ⟨rfl, rfl, rfl, rfl, fun s => ⟨?_, ?_, ?_, ?_⟩⟩
  · rw [exec, execRlc, rotateLeft_eq]
    rfl
  · rw [exec, execRrc, rotateRight_eq]
    rfl
  · rw [exec, execRal, rotateLeftCarry_eq]
    rfl
  · rw [exec, execRar, rotateRightCarry_eq]
    rfl

/-- Settles O26: CMA's complement is the exclusive or with ones; STC and CMC write CY as their arms say. -/
theorem complementAndCarryResults : Obligations.ComplementAndCarryResults := by
  refine ⟨rfl, rfl, rfl, fun s => ⟨?_, rfl, rfl⟩⟩
  have hcomplement : s.regs.a ^^^ 0xFF = ~~~ s.regs.a := BitVec.xor_allOnes
  rw [hcomplement]
  rfl

end Sys2Proof.Machine
end

section
/-!
Control transfer (R230 to R239): jumps, calls, returns and restarts, executed, stepped from memory and injected.
-/
namespace Sys2Proof.Machine

/-- What an instruction does when executed and when stepped from memory: one effect, in a step from the state the fetch
leaves (R140 to R142). -/
theorem exec_and_step_eq_effect {i : Instr} (hwf : i.wellFormed = true) (hknown : ∀ op, i ≠ .unknown op) (s : State) :
    exec i s = .next (effect i s) ∧ (s.status = .running → SpelledAtPc s (encode i) →
      step s = .next (effect i { s with pc := s.pc + BitVec.ofNat 16 (encode i).length })) :=
  ⟨exec_eq_effect hwf hknown s, fun hrun hspelled =>
    (stepRunsEncodedInstruction i s hwf hrun hspelled).trans (exec_eq_effect hwf hknown _)⟩

theorem word_sub_two_succ (a : Word) : a - 2 + 1 = a - 1 := by
  bv_omega

/-- A call's two stores, each at its own address below the old `sp` (R230, R250). -/
theorem State.afterCall_eq (s : State) (target : Word) : s.afterCall target =
    { (s.storeByte (s.sp - 2) (lo8 s.pc)).storeByte (s.sp - 1) (hi8 s.pc) with sp := s.sp - 2, pc := target } := by
  rw [State.afterCall, State.storeWord, word_sub_two_succ]
  rfl

/-! An accepted injection (R331). -/

theorem assemble_of_isRestartOpcode :
    ∀ op : Byte, isRestartOpcode op = true → assemble op 0 0 = .rst (field53 op) := by
  decide

theorem isRestartOpcode_rst : ∀ n : BitVec 3, isRestartOpcode (BitVec.ofNat 8 (0xC7 + 8 * n.toNat)) = true := by
  decide

theorem field53_rst : ∀ n : BitVec 3, field53 (BitVec.ofNat 8 (0xC7 + 8 * n.toNat)) = n := by
  decide

/-- An accepted injection executes the restart of the opcode, with `inte` cleared and `pc` where it stands. -/
theorem inject_of_accepted {op : Byte} {s : State} (hrun : s.status = .running) (hop : isRestartOpcode op = true)
    (hinte : s.inte = true) : inject op s = exec (.rst (field53 op)) (s.setInte false) := by
  rw [← assemble_of_isRestartOpcode op hop]
  simp [inject, hrun, hop, hinte]

/-! The claims. -/

/-- Settles O33: each effect writes `pc` alone, and where the jump is not taken `pc` stays where the fetch left it. -/
theorem jumpResults : Obligations.JumpResults := by
  refine ⟨fun a => ⟨rfl, fun _ => rfl⟩, fun c a hc => ⟨rfl, fun s => ?_⟩, rfl, fun _ => rfl⟩
  obtain ⟨hexec, hstep⟩ := exec_and_step_eq_effect (i := .jccc c a) (decide_eq_true hc) nofun s
  refine ⟨hexec, fun hrun hspelled => (hstep hrun hspelled).trans (congrArg Host.Outcome.next ?_)⟩
  exact (apply_ite (fun target => { s with pc := target }) (conditionTrue s.flags c = true) a (s.pc + 3)).symm

/-- Settles O34: a call taken is `afterCall`, and one not taken keeps the state. -/
theorem callResults : Obligations.CallResults := by
  refine ⟨fun a => ⟨rfl, fun s => ?_⟩, fun c a hc => ⟨rfl, fun s => ?_⟩⟩
  · have htaken := exec_and_step_eq_effect (i := .call a) rfl nofun s
    simp only [effect, State.afterCall_eq] at htaken
    exact htaken
  · have hcond := exec_and_step_eq_effect (i := .cccc c a) (decide_eq_true hc) nofun s
    simp only [effect, State.afterCall_eq] at hcond
    exact hcond

/-- Settles O35: a return taken is `afterReturn`, in which the `pc` of before has no part, and one not taken keeps the
state. -/
theorem returnResults : Obligations.ReturnResults :=
  ⟨rfl, exec_eq_effect (i := .ret) rfl nofun, fun _ hc =>
    ⟨rfl, exec_and_step_eq_effect (i := .rccc _) (decide_eq_true hc) nofun⟩⟩

/-- Settles O36: a restart is `afterCall` at its vector; the `pc` it pushes is the one the fetch left, or an injection found. -/
theorem restartResult : Obligations.RestartResult := by
  refine fun n => ⟨rfl, fun s => ?_⟩
  have hrestart (u : State) := exec_and_step_eq_effect (i := .rst n) rfl nofun u
  simp only [effect, State.afterCall_eq] at hrestart
  obtain ⟨hexec, hstep⟩ := hrestart s
  refine ⟨hexec, hstep, fun hrun hinte => ?_⟩
  rw [inject_of_accepted hrun (isRestartOpcode_rst n) hinte, field53_rst]
  exact (hrestart (s.setInte false)).1

end Sys2Proof.Machine
end

section
/-!
The stack (R250 to R260): PUSH and POP of the pairs and of PSW, XTHL, SPHL, and a pop after a push.
-/
namespace Sys2Proof.Machine

/-! The packed flags byte (R254). -/

/-- The bits of PUSH PSW's flags byte as a sum: no two of them share a place. -/
theorem packF_eq (f : Flags) : packF f = BitVec.ofNat 8
    (128 * f.s.toNat + 64 * f.z.toNat + 16 * f.ac.toNat + 4 * f.p.toNat + 2 + f.cy.toNat) := by
  obtain ⟨z, s, p, cy, ac⟩ := f
  revert z s p cy ac
  decide

theorem unpackF_eq (b : Byte) : unpackF b =
    { s := decide (b.toNat / 128 % 2 = 1), z := decide (b.toNat / 64 % 2 = 1), ac := decide (b.toNat / 16 % 2 = 1),
      p := decide (b.toNat / 4 % 2 = 1), cy := decide (b.toNat % 2 = 1) } := by
  simp [unpackF, BitVec.getLsbD, Nat.testBit_eq_decide_div_mod_eq]

/-- Bits 5, 3 and 1 of a popped byte are lost: the mask drops them, and packing fills them with 0, 0, 1. -/
theorem packF_unpackF : ∀ b : Byte, packF (unpackF b) = (b &&& 0xD7) ||| 0x02 := by
  decide

/-! The states of stack instructions, byte by byte. -/

/-- A push's two stores, each at its own address below the old `sp` (R250). -/
theorem State.afterPush_eq (s : State) (v : Word) : s.afterPush v =
    { (s.storeByte (s.sp - 2) (lo8 v)).storeByte (s.sp - 1) (hi8 v) with sp := s.sp - 2 } := by
  rw [State.afterPush, State.storeWord, word_sub_two_succ]
  rfl

theorem withPair_setSp {p : Nat} (s : State) (v sp : Word) (h : p < 3) :
    withPair (s.setSp sp) p v = { withPair s p v with sp := sp } := by
  interval_cases p <;> rfl

theorem effect_pushPsw (s : State) : effect .pushPsw s =
    { (s.storeByte (s.sp - 2) (packF s.flags)).storeByte (s.sp - 1) s.regs.a with sp := s.sp - 2 } := by
  rw [effect, State.afterPush_eq, lo8_join, hi8_join]

theorem effect_popPsw (s : State) : effect .popPsw s = { s with
    regs := { s.regs with a := s.byteAt (s.sp + 1) }
    flags := unpackF (s.byteAt s.sp)
    sp := s.sp + 2 } := by
  rw [effect, State.wordAt, lo8_join, hi8_join]
  rfl

theorem effect_xthl (s : State) : effect .xthl s =
    { (s.storeByte s.sp s.regs.l).storeByte (s.sp + 1) s.regs.h with
      regs := { s.regs with h := s.byteAt (s.sp + 1), l := s.byteAt s.sp } } := by
  simp only [effect, State.hl, State.storeWord, State.wordAt, State.setHl, lo8_join, hi8_join]
  rfl

/-! The claims. -/

/-- Settles O38: a push stores the sum `packF` is, a pop reads the bits `unpackF` takes, and no other effect writes AC. -/
theorem pswPushPopResults : Obligations.PswPushPopResults := by
  refine ⟨rfl, rfl, fun s => ?_, fun s => ?_, packF_unpackF, fun i s t hwf hexec hac => ?_⟩
  · rw [exec_eq_effect (i := .pushPsw) rfl nofun, effect_pushPsw, packF_eq]
  · rw [exec_eq_effect (i := .popPsw) rfl nofun, effect_popPsw, unpackF_eq]
  · by_contra hi
    rw [eq_effect_of_exec hwf hexec] at hac
    exact hac (effect_ac s hi)

/-- Settles O40: the pop reads the word at the `sp` the push stored at, and moves `sp` back up. -/
theorem popAfterPush : Obligations.PopAfterPush := by
  intro s v
  have hvalue : (s.afterPush v).wordAt (s.afterPush v).sp = v := State.wordAt_storeWord _ _ v
  have hpop := pop16_eq (s.afterPush v)
  rw [hvalue] at hpop
  refine ⟨_, _, push16_eq s v, hpop, sub_add_cancel s.sp 2, State.byteAt_storeWord_low _ _ v, ?_⟩
  rw [← word_sub_two_succ]
  exact State.byteAt_storeWord_high _ _ v

/-- Settles O37: a push's stores and a pop's pair write, at a pair index in range. -/
theorem pushPopPairResults : Obligations.PushPopPairResults := by
  refine fun p hp => ⟨rfl, rfl, fun s => ⟨?_, ?_⟩⟩
  · rw [exec_eq_effect (i := .pushRp p) (decide_eq_true hp) nofun, effect, State.afterPush_eq]
  · rw [exec_eq_effect (i := .popRp p) (decide_eq_true hp) nofun, effect, withPair_setSp s _ _ hp]
    rfl

/-- Settles O39: XTHL's stores and its write of H:L, byte by byte; SPHL's effect is its one write. -/
theorem exchangeTopAndSphlResults : Obligations.ExchangeTopAndSphlResults := by
  refine ⟨rfl, rfl, fun s => ⟨?_, rfl⟩⟩
  rw [exec_eq_effect (i := .xthl) rfl nofun, effect_xthl]

end Sys2Proof.Machine
end

section
/-!
Data transfer (R270 to R282): MOV, MVI and LXI, the accumulator and H:L loads and stores, and XCHG.
-/
namespace Sys2Proof.Machine

/-! The effects in the claims' terms: registers by index, pairs by their bytes. -/

theorem withReg_setPc (s : State) (pc : Word) (r : Nat) (v : Byte) :
    withReg (s.setPc pc) r v = { withReg s r v with pc := pc } := by
  rw [← setReg_regName, ← setReg_regName]
  rfl

theorem effect_mviD (s : State) (d : Nat) (v : Byte) : effect (.mviD d v) s = withReg s d v :=
  setReg_regName s v d

theorem effect_movDS (s : State) (d r : Nat) : effect (.movDS d r) s = withReg s d (regAt s r) := by
  rw [effect, setReg_regName, regs_get_regName]

theorem effect_movDM (s : State) (d : Nat) : effect (.movDM d) s = withReg s d (s.byteAt (pairAt s 2)) :=
  setReg_regName s _ d

theorem effect_movMS (s : State) (r : Nat) : effect (.movMS r) s = s.storeByte (pairAt s 2) (regAt s r) :=
  congrArg (s.storeByte (pairAt s 2)) (regs_get_regName s r)

theorem effect_shld (s : State) (a : Word) :
    effect (.shld a) s = (s.storeByte a s.regs.l).storeByte (a + 1) s.regs.h := by
  rw [effect, State.storeWord, State.hl, lo8_join, hi8_join]

theorem effect_lhld (s : State) (a : Word) :
    effect (.lhld a) s = { s with regs := { s.regs with l := s.byteAt a, h := s.byteAt (a + 1) } } := by
  rw [effect, State.setHl, State.wordAt, lo8_join, hi8_join]
  rfl

theorem effect_xchg (s : State) : effect .xchg s =
    { s with regs := { s.regs with d := s.regs.h, e := s.regs.l, h := s.regs.d, l := s.regs.e } } := by
  simp only [effect, State.setDe, State.setHl, State.de, State.hl, lo8_join, hi8_join]
  rfl

/-! The claims. -/

/-- Settles O28: MVI's effect is its one write, in a step on the state the fetch leaves, whose `pc` is two on. -/
theorem moveImmediateResults : Obligations.MoveImmediateResults := by
  refine fun v => ⟨fun d h8 h6 => ⟨rfl, fun s => ?_⟩, rfl, exec_eq_effect (i := .mviM v) rfl nofun⟩
  have hmvi := exec_and_step_eq_effect (i := .mviD d v) ((isRegisterIndex_iff d).2 ⟨h8, h6⟩) nofun s
  simp only [effect_mviD] at hmvi
  obtain ⟨hexec, hstep⟩ := hmvi
  refine ⟨hexec, fun hrun hspelled => (hstep hrun hspelled).trans (congrArg Host.Outcome.next ?_)⟩
  exact withReg_setPc s (s.pc + 2) d v

/-- Settles O27: a register index in range fails no check, so each form is its effect. -/
theorem moveResults : Obligations.MoveResults := by
  refine ⟨fun d r hd8 hd6 hr8 hr6 => ⟨rfl, fun s => ?_⟩, fun d h8 h6 => ⟨rfl, fun s => ?_⟩,
    fun r h8 h6 => ⟨rfl, fun s => ?_⟩⟩
  · have hd := (isRegisterIndex_iff d).2 ⟨hd8, hd6⟩
    have hr := (isRegisterIndex_iff r).2 ⟨hr8, hr6⟩
    rw [exec_eq_effect (i := .movDS d r) (Bool.and_eq_true_iff.2 ⟨hd, hr⟩) nofun, effect_movDS]
  · rw [exec_eq_effect (i := .movDM d) ((isRegisterIndex_iff d).2 ⟨h8, h6⟩) nofun, effect_movDM]
  · rw [exec_eq_effect (i := .movMS r) ((isRegisterIndex_iff r).2 ⟨h8, h6⟩) nofun, effect_movMS]

/-- Settles O29: LXI's effect is the pair write, and a pair index in range fails no check. -/
theorem loadPairImmediateResult : Obligations.LoadPairImmediateResult :=
  fun p v hp => ⟨rfl, exec_eq_effect (i := .lxi p v) (decide_eq_true hp) nofun⟩

/-- Settles O30: the effects of LDAX and STAX are one read and one store at the pair. -/
theorem indirectAccumulatorResults : Obligations.IndirectAccumulatorResults :=
  fun p hp => ⟨rfl, rfl, fun s =>
    ⟨exec_eq_effect (i := .ldax p) (decide_eq_true hp) nofun s,
      exec_eq_effect (i := .stax p) (decide_eq_true hp) nofun s⟩⟩

/-- Settles O31: SHLD and LHLD byte by byte, L at the address itself; STA and LDA are one store and one read. -/
theorem directAddressResults : Obligations.DirectAddressResults := by
  refine fun a => ⟨rfl, rfl, rfl, rfl, fun s => ⟨?_, ?_, ?_, ?_⟩⟩
  · rw [exec_eq_effect (i := .shld a) rfl nofun, effect_shld]
  · rw [exec_eq_effect (i := .lhld a) rfl nofun, effect_lhld]
  · exact exec_eq_effect (i := .sta a) rfl nofun s
  · exact exec_eq_effect (i := .lda a) rfl nofun s

/-- Settles O32: the pair writes of XCHG's effect, byte by byte, from the registers of before. -/
theorem exchangePairsResult : Obligations.ExchangePairsResult := by
  refine ⟨rfl, fun s => ?_⟩
  rw [exec_eq_effect (i := .xchg) rfl nofun, effect_xchg]

end Sys2Proof.Machine
end

section
/-!
Ports and machine control (R300 to R306): IN, OUT and the shift peripheral it drives (R335 to R339), EI, DI, NOP and HLT, and that
nothing moves a machine whose run has ended (R306, R346).
-/
namespace Sys2Proof.Machine

/-! The peripheral's bit operations as arithmetic (R336 to R338). -/

theorem extractLsb'_zero_three (v : Byte) : v.extractLsb' 0 3 = BitVec.ofNat 3 (v.toNat % 8) := by
  apply BitVec.eq_of_toNat_eq
  simp [BitVec.extractLsb'_toNat]

theorem joinBytes_toNat (hi lo : Byte) : (joinBytes hi lo).toNat = 256 * hi.toNat + lo.toNat := by
  rw [joinBytes, BitVec.toNat_append, ← Nat.shiftLeft_add_eq_or_of_lt lo.isLt, Nat.shiftLeft_eq, Nat.mul_comm]

theorem joinBytes_hi8_eq (v : Byte) (w : Word) :
    joinBytes v (hi8 w) = BitVec.ofNat 16 (256 * v.toNat + w.toNat / 256) := by
  rw [← hi8_toNat, ← joinBytes_toNat, BitVec.ofNat_toNat, BitVec.setWidth_eq]

theorem shiftExtract_eq (reg : Word) (amt : BitVec 3) :
    shiftExtract reg amt = BitVec.ofNat 8 (reg.toNat / 2 ^ (8 - amt.toNat)) := by
  apply BitVec.eq_of_toNat_eq
  rw [shiftExtract, lo8_toNat, BitVec.toNat_ushiftRight, Nat.shiftRight_eq_div_pow, BitVec.toNat_ofNat]

/-! What OUT leaves in each piece of the peripheral, at every port. -/

theorem effect_outPort_shamt (port : Byte) (s : State) : (effect (.outPort port) s).shamt =
    if port = 2 then BitVec.ofNat 3 (s.regs.a.toNat % 8) else s.shamt := by
  split
  · next h =>
    subst h
    exact extractLsb'_zero_three s.regs.a
  · next h => exact (effect_controlFrame _ s).shamt (mt Instr.outPort.inj h)

theorem effect_outPort_shreg (port : Byte) (s : State) : (effect (.outPort port) s).shreg =
    if port = 4 then BitVec.ofNat 16 (256 * s.regs.a.toNat + s.shreg.toNat / 256) else s.shreg := by
  split
  · next h =>
    subst h
    exact joinBytes_hi8_eq s.regs.a s.shreg
  · next h => exact (effect_controlFrame _ s).shreg (mt Instr.outPort.inj h)

theorem effect_outPort_latch (port q : Byte) (s : State) : (effect (.outPort port) s).latch q =
    if q = 3 ∧ (port = 2 ∨ port = 4) then
      BitVec.ofNat 8 ((effect (.outPort port) s).shreg.toNat / 2 ^ (8 - (effect (.outPort port) s).shamt.toNat))
    else s.latch q := by
  split
  · next h =>
    rw [← shiftExtract_eq]
    obtain ⟨rfl, rfl | rfl⟩ := h
    · exact shiftLatch_latch_result _
    · exact shiftLatch_latch_result _
  · next h =>
    by_contra hne
    obtain ⟨hq, hport⟩ := effect_latch_ne hne
    exact h ⟨hq, hport.imp Instr.outPort.inj Instr.outPort.inj⟩

/-! A run that has ended (R346). -/

theorem inject_of_not_running (op : Byte) {s : State} (h : s.status ≠ .running) : inject op s = .next s :=
  if_pos h

theorem hostWriteLatch_of_not_running (port v : Byte) {s : State} (h : s.status ≠ .running) :
    hostWriteLatch port v s = .next s :=
  if_pos h

theorem hostAct_of_not_running (act : HostAction) {s : State} (h : s.status ≠ .running) : hostAct act s = .next s := by
  cases act with
  | inject op => exact inject_of_not_running op h
  | refresh half => exact inject_of_not_running (hostVector half) h
  | writeLatch port v => exact hostWriteLatch_of_not_running port v h
  | terminate => rfl

/-! The claims. -/

/-- Settles O43: the peripheral's three pieces port by port, and nothing else is touched. -/
theorem outPortResult : Obligations.OutPortResult := by
  refine fun p => ⟨rfl, fun s => ⟨_, exec_eq_effect (i := .outPort p) rfl nofun s, effect_outPort_shamt p s,
    effect_outPort_shreg p s, fun q => effect_outPort_latch p q s, ?_⟩⟩
  rw [effect_outPort_eq]

/-- Settles O42: IN's effect is its one write, of the latch to A. -/
theorem inPortResult : Obligations.InPortResult :=
  fun p => ⟨rfl, exec_eq_effect (i := .inPort p) rfl nofun⟩

/-- Settles O44: each effect is its one write, and HLT leaves a status in which neither a step nor a host action is taken. -/
theorem machineControlResults : Obligations.MachineControlResults := by
  refine ⟨rfl, rfl, rfl, rfl, fun s => ⟨rfl, rfl, rfl, rfl, ?_⟩⟩
  have hhalted : ({ s with status := .halted } : State).status ≠ .running := nofun
  refine ⟨fun t hstep => ?_, fun act => hostAct_of_not_running act hhalted⟩
  rw [stepNeedsRunning _ hhalted] at hstep
  cases hstep

end Sys2Proof.Machine
end

section
/-!
The host's side (R330 to R346): the injection entry point, the display, the input host and the termination.
-/
namespace Sys2Proof.Machine

/-! Injection (R331). -/

theorem isRestartOpcode_iff (op : Byte) : isRestartOpcode op = true ↔ op &&& 0xC7 = 0xC7 :=
  beq_iff_eq

/-- The vector of a restart opcode is its field `nnn` in place, since the field begins at bit 3. -/
theorem restartVector_field53 : ∀ op : Byte, restartVector (field53 op) = BitVec.ofNat 16 (op.toNat &&& 0x38) := by
  decide

theorem inject_of_not_restart {op : Byte} {s : State} (hrun : s.status = .running) (hop : ¬ op &&& 0xC7 = 0xC7) :
    inject op s = .refused (.injectedNotRst op) := by
  rw [← isRestartOpcode_iff, Bool.not_eq_true] at hop
  simp [inject, hrun, hop]

/-- A restart injected with interrupts off is dropped. -/
theorem inject_of_disabled {op : Byte} {s : State} (hop : op &&& 0xC7 = 0xC7) (hinte : s.inte = false) :
    inject op s = .next s := by
  rw [← isRestartOpcode_iff] at hop
  simp [inject, hop, hinte]

/-- Settles O45: an accepted injection is the effect of its restart, taken with `inte` cleared. -/
theorem injectionResult : Obligations.InjectionResult := by
  intro op s
  split_ifs with hended hop hinte
  · exact inject_of_not_running op hended
  · exact inject_of_not_restart (not_not.1 hended) hop
  · exact inject_of_disabled (not_not.1 hop) hinte
  · have hrestart := (isRestartOpcode_iff op).2 (not_not.1 hop)
    rw [inject_of_accepted (not_not.1 hended) hrestart (eq_true_of_ne_false hinte),
      exec_eq_effect (i := .rst (field53 op)) rfl nofun, effect, State.afterCall_eq, restartVector_field53]
    rfl

/-- An injection that gives a next state of a running core leaves interrupts off: it was dropped, or it cleared `inte`
(R332). -/
theorem inject_next_inte {op : Byte} {s t : State} (hrun : s.status = .running) (h : inject op s = .next t) :
    t.inte = false := by
  rw [injectionResult, if_neg (not_not.2 hrun)] at h
  split at h
  · cases h
  · split at h
    · next hinte =>
      cases h
      exact hinte
    · cases h
      rfl

/-- Settles O46: the first injection leaves interrupts off. -/
theorem secondInjectionDropped : Obligations.SecondInjectionDropped :=
  fun _ _ _ _ hrun _ h hop => inject_of_disabled hop (inject_next_inte hrun h)

/-! The input host (R343) and the display (R344). -/

theorem mem_hostLatches_iff (port : Byte) : port ∈ hostLatches ↔ port = 1 :=
  List.mem_singleton

theorem hostWriteLatch_of_running (port v : Byte) {s : State} (hrun : s.status = .running) :
    hostWriteLatch port v s =
      if port = 1 then .next (s.setLatch port v) else .refused (.latchNotHostWritable port) := by
  simp [hostWriteLatch, hrun, mem_hostLatches_iff]

theorem videoBytes_length (s : State) : (videoBytes s).length = 7168 := by
  rw [videoBytes, List.length_map, List.length_range, Config.videoSize]

theorem videoBytes_getElem? (s : State) {k : Nat} (h : k < 7168) :
    (videoBytes s)[k]? = some (s.byteAt (BitVec.ofNat 16 (0x2400 + k))) := by
  rw [videoBytes, List.getElem?_map, Config.videoSize, List.getElem?_range h]
  rfl

/-- Settles O47: each action's one equation, while the core runs and after. -/
theorem hostActionResults : Obligations.HostActionResults := by
  refine fun s => ⟨rfl, rfl, videoBytes_length s, fun k => videoBytes_getElem? s, rfl, fun hrun p v hp => ?_,
    fun hrun v => ⟨s.setLatch 1 v, ?_, fun q => State.latch_setLatch s 1 q v, rfl⟩,
    fun hended act => hostAct_of_not_running act hended⟩
  · rw [hostAct, hostWriteLatch_of_running p v hrun, if_neg hp]
  · rw [hostAct, hostWriteLatch_of_running 1 v hrun, if_pos rfl]

end Sys2Proof.Machine
end

section
/-!
Fatal errors (R320 to R324): every decodable instruction but an unknown opcode completes, so UnknownOpcode is the one fatal error a
run can meet; the checks of R322 and R323 fire on operands that no instruction of a run has.
-/
namespace Sys2Proof.Machine

/-! Checked access outside its range. -/

theorem getRP_out (s : State) {p : Nat} (h : 4 ≤ p) : getRP s p = .error (.indexOutOfRange .pair p) := by
  obtain ⟨k, rfl⟩ := Nat.exists_eq_add_of_le' h
  rfl

theorem setRP_out (s : State) {p : Nat} (v : Word) (h : 4 ≤ p) :
    setRP s p v = .error (.indexOutOfRange .pair p) := by
  obtain ⟨k, rfl⟩ := Nat.exists_eq_add_of_le' h
  rfl

theorem memRead8_out (s : State) {addr : Nat} (h : Config.memSize ≤ addr) :
    memRead8 s addr = .error (.addressOutOfRange addr) :=
  if_neg h.not_gt

theorem memWrite8_out (s : State) {addr : Nat} (v : Byte) (h : Config.memSize ≤ addr) :
    memWrite8 s addr v = .error (.addressOutOfRange addr) :=
  if_neg h.not_gt

/-- A two-byte access checks the address of its low byte first. -/
theorem memRead16_out (s : State) {addr : Nat} (h : Config.memSize ≤ addr) :
    memRead16 s addr = .error (.addressOutOfRange addr) := by
  rw [memRead16, memRead8_out s h, checked_error_bind]

theorem memWrite16_out (s : State) {addr : Nat} (v : Word) (h : Config.memSize ≤ addr) :
    memWrite16 s addr v = .error (.addressOutOfRange addr) := by
  rw [memWrite16, memWrite8_out s _ h, checked_error_bind]

/-! The fatal errors of a run. -/

/-- A well-formed instruction meets no fatal error but its own UnknownOpcode. -/
theorem exec_fatal {i : Instr} {s left : State} {e : FatalError} (hwf : i.wellFormed = true)
    (h : exec i s = .fault (.fatal e left)) : ∃ op, e = .unknownOpcode op (s.pc - 1) := by
  by_cases hi : ∃ op, i = .unknown op
  · obtain ⟨op, rfl⟩ := hi
    cases h
    exact ⟨op, rfl⟩
  · rw [exec_eq_effect hwf (not_exists.1 hi)] at h
    cases h

theorem step_fatal {s left : State} {e : FatalError} (h : step s = .fault (.fatal e left)) :
    ∃ op addr, e = .unknownOpcode op addr := by
  by_cases hrun : s.status = .running
  · obtain ⟨i, rest, hdecode⟩ := decode_three (s.byteAt s.pc) (s.byteAt (s.pc + 1)) (s.byteAt (s.pc + 2))
    rw [step_of_decode hrun hdecode] at h
    obtain ⟨op, he⟩ := exec_fatal (decode_ok_inv hdecode).1 h
    exact ⟨op, _, he⟩
  · rw [stepNeedsRunning s hrun] at h
    cases h

/-- None of the four outcomes of an injection is a fault. -/
theorem inject_ne_fault (op : Byte) (s : State) (r : Fault) : inject op s ≠ .fault r := by
  rw [injectionResult]
  split_ifs <;> nofun

theorem hostAct_ne_fault (act : HostAction) (s : State) (r : Fault) : hostAct act s ≠ .fault r := by
  cases act with
  | inject op => exact inject_ne_fault op s r
  | refresh half => exact inject_ne_fault (hostVector half) s r
  | writeLatch port v =>
    simp only [hostAct, hostWriteLatch]
    split_ifs <;> nofun
  | terminate => nofun

/-- The one fatal error of a run. -/
theorem runEvent_fatal {ev : Event} {s left : State} {e : FatalError} (h : runEvent ev s = .fault (.fatal e left)) :
    ∃ op addr, e = .unknownOpcode op addr := by
  cases ev with
  | step => exact step_fatal h
  | host act => exact absurd h (hostAct_ne_fault act s _)

/-- An unknown opcode decodes to its own instruction and takes no operand byte (R110). -/
theorem decode_of_unknown {op : Byte} (b2 b3 : Byte) (h : op ∈ unknownOpcodes) :
    decode [op, b2, b3] = .ok (.unknown op, [b2, b3]) := by
  have hdecode := decode_opcode_operands op 0 0 [b2, b3]
  rwa [(classify_eq_unknown_iff op).2 h, assemble_of_unknown 0 0 h] at hdecode

/-! The claims. -/

/-- Settles O12: a well-formed instruction completes in its effect, and the effect of HLT alone writes the status. -/
theorem decodableInstructionsComplete : Obligations.DecodableInstructionsComplete := by
  intro i s hwf hknown
  refine ⟨effect i s, exec_eq_effect hwf hknown s, ?_⟩
  split
  · next hhlt =>
    subst hhlt
    rfl
  · next hhlt => exact (effect_controlFrame i s).status hhlt

/-- Settles O10: each access checks its index, and the one fatal error of a run is another. -/
theorem indexOutOfRangeChecks : Obligations.IndexOutOfRangeChecks := by
  refine ⟨fun s r v hr => ⟨getR_out s hr, setR_out s v hr⟩, fun s p v hp => ?_, fun f c => condHolds_out f,
    fun _ _ => rfl, fun e s left what index h => ?_⟩
  · have hp3 : p ≠ 3 := by omega
    rw [getRPpsw_of_ne s hp3, setRPpsw_of_ne s v hp3]
    exact ⟨getRP_out s hp, setRP_out s v hp, getRP_out s hp, setRP_out s v hp⟩
  · obtain ⟨op, addr, he⟩ := runEvent_fatal h
    cases he

/-- Settles O11: each access checks its address, and the one fatal error of a run is another. -/
theorem addressOutOfRangeChecks : Obligations.AddressOutOfRangeChecks := by
  refine ⟨fun s addr v w h => ⟨memRead8_out s h, memWrite8_out s v h, memRead16_out s h, memWrite16_out s w h⟩,
    fun _ => rfl, fun e s left addr h => ?_⟩
  obtain ⟨op, opaddr, he⟩ := runEvent_fatal h
  cases he

/-- Settles O9: the fetch moves `pc` past the opcode alone, so `pc - 1` is the opcode's address; no unknown opcode is a
restart. -/
theorem unknownOpcodeFault : Obligations.UnknownOpcodeFault := by
  intro s hrun hop e
  obtain ⟨-, hunknown⟩ := unknownOpcodesAreThirteen (s.byteAt s.pc)
  obtain ⟨-, hexec, hinject⟩ := hunknown hop
  refine ⟨?_, rfl, hinject s hrun⟩
  have hopaddr : (s.setPc (s.pc + 1)).pc - 1 = s.pc := add_sub_cancel_right s.pc 1
  have hstep := (step_of_decode hrun (decode_of_unknown _ _ hop)).trans (hexec (s.setPc (s.pc + 1)))
  rwa [hopaddr] at hstep

end Sys2Proof.Machine
end

section
/-!
When two images give one reset state (R372): loading changes the memory alone, and canonical memories that read alike are equal.
-/
namespace Sys2Proof.Machine

theorem resetWith_eq_of_mem {image image' : List Byte}
    (h : (State.resetWith image).mem = (State.resetWith image').mem) : State.resetWith image = State.resetWith image' := by
  have hload (bytes : List Byte) :
      State.resetWith bytes = { State.reset with mem := (State.resetWith bytes).mem } := placeBytes_eq _ _ _
  rw [hload image, hload image', h]

theorem resetWith_eq_iff (image image' : List Byte) : State.resetWith image = State.resetWith image' ↔
    ∀ k, k < 8192 → image.getD k 0 = image'.getD k 0 := by
  constructor
  · intro h k hk
    have hbyte := congrArg (State.byteAt · (BitVec.ofNat 16 k)) h
    have haddr : (BitVec.ofNat 16 k).toNat = k := by
      rw [BitVec.toNat_ofNat, Nat.mod_eq_of_lt (by omega)]
    simpa only [byteAt_resetWith, haddr, if_pos hk] using hbyte
  · intro h
    refine resetWith_eq_of_mem (State.mem_ext (placeBytes_mem_wf reset_mem_wf) (placeBytes_mem_wf reset_mem_wf) ?_)
    intro a
    rw [byteAt_resetWith, byteAt_resetWith]
    split
    · next ha => exact h _ ha
    · rfl

/-- Settles O60: the reset state is the one of the empty image, every byte of which counts as zero. -/
theorem resetStateIsEmptyImage : Obligations.ResetStateIsEmptyImage :=
  fun image => ⟨resetWith_eq_iff image [], resetWith_eq_iff image⟩

end Sys2Proof.Machine
end
